-- ==== Sys2Proof/Word.lean ====
section
/-! DEFINITION. The word types of RTD_ACQ, each named after the element of the spec that has its width.
All integer quantities of the block are unsigned (spec/00_scope.md section 5). -/

namespace Sys2Proof

/-- A byte of the chip's register space, and the configuration shadow (R11, R44): 8 bits. -/
abbrev Byte := BitVec 8

/-- What one bus read returns (R45), and `RAW16` (R22): 16 bits. -/
abbrev Half := BitVec 16

/-- A command word (R61): 32 bits. -/
abbrev Word := BitVec 32

/-- An IEEE 754 binary64 bit pattern (R20, R66): 64 bits. -/
abbrev Bits64 := BitVec 64

/-- The response word (R28, R68): 18 bits, `STATUS` in 17:15 and `CODE` in 14:0. -/
abbrev RespWord := BitVec 18

/-- The raw code of a reading (R68, R94): 15 bits. -/
abbrev RawCode := BitVec 15

end Sys2Proof
end

