-- ==== Sys2Proof/Syntax.lean ====
section
/-! DEFINITION. The three commands of the block (R2, R62), one constructor per row of spec/opcode_table.json.

A constructor holds the fields of the command word and nothing else. The side operands `cmd_ref` and `cmd_r0` (R66)
are no part of the word: they stand on the command port, and `State.lines` holds them. -/

namespace Sys2Proof

/-- A host command. -/
inductive Instr where
  /-- CONFIGURE (R63, R110): `RV`, `ZV`, `FILT`, `WIRES`. The last two are the source's unsigned integers
  `filter_hz` and `wires` (R69); the word holds those from 0 to 255. -/
  | configure (rv zv : Bool) (filt wires : Nat)
  /-- SET_BIAS (R64, R120): `EN`. -/
  | setBias (en : Bool)
  /-- READ (R65, R130): no operand. -/
  | read
deriving DecidableEq, Repr

end Sys2Proof
end

