-- ==== Sys2Proof/WellFormed.lean ====
section
/-! DEFINITION. Which commands have an encoding. R69: "values below 0 or above 255 have no encoding in this command
word". Every other operand fits by its type. -/

namespace Sys2Proof

/-- An unsigned operand fits an 8-bit field of the command word (R63). -/
def fitsByte (n : Nat) : Bool := n < 256

/-- The command has a command word. A `FILT` or `WIRES` value out of the legal ranges is well formed: R70 calls it
legal as an encoding. -/
def Instr.wf : Instr → Bool
  | .configure _ _ filt wires => fitsByte filt && fitsByte wires
  | .setBias _ => true
  | .read => true

end Sys2Proof
end

