-- ==== Sys2Proof/Decode.lean ====
section
/-! DEFINITION. Decoding of a command word, total on every 32-bit word, and the encoder (R61 to R65, R70).
One length, three formats, the opcode in bits 31:28 of each. -/

namespace Sys2Proof

/-- Why a word is illegal (R70). Either way the block answers `ILLEGAL_COMMAND`. -/
inductive DecodeError where
  /-- `OPC` is none of 1, 2, 3 (R62). -/
  | unknownOpcode (opc : BitVec 4)
  /-- A bit that the format of the word's opcode marks "zero" is 1 (R61). -/
  | reservedBits (opc : BitVec 4)
deriving DecidableEq, Repr

/-- `OPC`, bits 31:28 of every format (R61). -/
def Word.opc (w : Word) : BitVec 4 := w.extractLsb' 28 4

/-- Format `C` (R63): `RV` 27, `ZV` 26, zero 25:16, `FILT` 15:8, `WIRES` 7:0. -/
def decodeConfigure (w : Word) : Except DecodeError Instr :=
  if w.extractLsb' 16 10 = 0#10 then
    .ok (.configure (w.getLsbD 27) (w.getLsbD 26) (w.extractLsb' 8 8).toNat (w.extractLsb' 0 8).toNat)
  else .error (.reservedBits (Word.opc w))

/-- Format `B` (R64): zero 27:1, `EN` 0. -/
def decodeSetBias (w : Word) : Except DecodeError Instr :=
  if w.extractLsb' 1 27 = 0#27 then .ok (.setBias (w.getLsbD 0)) else .error (.reservedBits (Word.opc w))

/-- Format `R` (R65): zero 27:0. -/
def decodeRead (w : Word) : Except DecodeError Instr :=
  if w.extractLsb' 0 28 = 0#28 then .ok .read else .error (.reservedBits (Word.opc w))

/-- The command a word stands for, or why it stands for none (R62, R70). -/
def decode (w : Word) : Except DecodeError Instr :=
  if Word.opc w = 1#4 then decodeConfigure w
  else if Word.opc w = 2#4 then decodeSetBias w
  else if Word.opc w = 3#4 then decodeRead w
  else .error (.unknownOpcode (Word.opc w))

/-- One bit as a word, at bit 0. -/
def bitWord (b : Bool) : Word := bif b then 1#32 else 0#32

/-- The command word of a command, by the formulas of R75:
`0x10000000 | (RV << 27) | (ZV << 26) | (f << 8) | w`, `0x20000000 | EN`, `0x30000000`. -/
def encode : Instr → Word
  | .configure rv zv filt wires =>
    0x10000000#32 ||| (bitWord rv <<< 27) ||| (bitWord zv <<< 26) ||| (BitVec.ofNat 32 filt <<< 8)
      ||| BitVec.ofNat 32 wires
  | .setBias en => 0x20000000#32 ||| bitWord en
  | .read => 0x30000000#32

/-- What the decoder reads from an instruction of `nbits` bits `w`, numbered as spec/opcode_table.json numbers them.
The command port takes the word whole (R60), so there is no byte order to lay out; bits above `nbits` are 0. -/
def decodeTableWord (nbits w : Nat) : Option Instr :=
  match decode (BitVec.ofNat 32 (w % 2 ^ nbits)) with
  | .ok i => some i
  | .error _ => none

end Sys2Proof
end

