-- ==== Sys2Proof/Config.lean ====
section
/-! DEFINITION. The implementation parameters of R6 (spec/00_scope.md section 4): the values the spec fixes, as
constants; the two it leaves OPEN (`CLK_HZ`, `WIRE3_RESET`), as a record that `State` carries as the model's argument
(log entry 2); and the two free values of the model: the bit pattern of a NaN quotient (log entry 5), and what the
host-side solver makes of calibration that is not positive (log entry 16).

The two protocol variants of R5 (auto-bias reading; explicit fault clear, also in CONFIGURE, and a single wait) are
fixed by the spec and are not parameters: no definition branches on them. -/

namespace Sys2Proof.Config

/-! ### Delays and the time base (R6, R175) -/

/-- `TICK_US`: the period of the timer tick in microseconds. -/
def tickUs : Nat := 1000
/-- `WARMUP_MS`: the bias warm-up delay. -/
def warmupMs : Nat := 10
/-- `CONV_MS_50`: the conversion delay with the 50 Hz filter. -/
def convMs50 : Nat := 63
/-- `CONV_MS_60`: the conversion delay with the 60 Hz filter. -/
def convMs60 : Nat := 53
/-- `WARMUP_TICKS = WARMUP_MS * 1000 / TICK_US`. -/
def warmupTicks : Nat := warmupMs * 1000 / tickUs
/-- `CONV_TICKS_50`, derived the same way. -/
def convTicks50 : Nat := convMs50 * 1000 / tickUs
/-- `CONV_TICKS_60`, derived the same way. -/
def convTicks60 : Nat := convMs60 * 1000 / tickUs

/-! ### The configuration byte and the register indices (R6, R12, R41, R42; the spec's decisions D5, D6, D7) -/

/-- `BIT_BIAS`. -/
def bitBias : Nat := 7
/-- `BIT_ONESHOT`. -/
def bitOneshot : Nat := 5
/-- `BIT_WIRE3`. -/
def bitWire3 : Nat := 4
/-- `BIT_FCLR`. -/
def bitFclr : Nat := 1
/-- `BIT_F50`. -/
def bitF50 : Nat := 0
/-- `F50_POLARITY`: the value of the filter bit that selects 50 Hz. -/
def f50Polarity : Bool := true
/-- `REG_CFG`: index of the chip's configuration register. -/
def regCfg : Byte := 0x00#8
/-- `REG_RTD`: index of the most significant byte of the chip's raw register. -/
def regRtd : Byte := 0x01#8

/-! ### Calibration defaults (R6, R20) -/

/-- `RREF_DEFAULT`: 400.0 ohm as binary64. -/
def rrefDefault : Bits64 := 0x4079000000000000#64
/-- `R0_DEFAULT` at reset: `RREF_DEFAULT / 4`, 100.0 ohm as binary64. -/
def r0Default : Bits64 := 0x4059000000000000#64
/-- The divisor of R83: 4.0 as binary64. -/
def four : Bits64 := 0x4010000000000000#64

/-- The parameters R6 leaves OPEN, "an argument of the model". A state carries one such record and no step changes
it, so a statement about every state is a statement about every value of the parameters. -/
structure Params where
  /-- `CLK_HZ / 1000`, the clocks of one tick; R6 makes `CLK_HZ` a multiple of 1000 Hz, so it is at least 1. -/
  clkKHz : Nat
  /-- `WIRE3_RESET`: the wire-mode bit after reset. -/
  wire3Reset : Bool
deriving DecidableEq, Repr

/-- The record `State.reset` carries: `WIRE3_RESET = 0`, which R6 suggests, and one clock a tick (DESIGN CHOICE, log
entry 2: R6 gives `CLK_HZ` no value). -/
def Params.default : Params where
  clkKHz := 1
  wire3Reset := false

/-- FREE VALUE (log entry 5): the pattern a division answers with when its result is a NaN, as a function of the
two operands. The spec says that the quotient of a NaN is "a NaN" (R83) and not which one. -/
opaque nanQuotient : Bits64 → Bits64 → Bits64

/-- FREE VALUE (log entry 16): the result of `preciseTemperature` for calibration that breaks `r_ref > 0`, `r0 > 0`, as
a function of the raw code and the two patterns; `none` stands for `DidNotConverge`. The spec takes "any value" there
(R21; spec/93_implementation_defined.md U8). -/
opaque anyTemperature : RawCode → Bits64 → Bits64 → Option Bits64

end Sys2Proof.Config
end

