-- ==== Sys2Proof/Machine/State.lean ====
section
/-! DEFINITION. The state of RTD_ACQ (R10), the lines of its ports (R43, R60, R67, R190), the observable trace (R81),
the reasons a step can stop, and the state after reset (R33). Plain data throughout. -/

namespace Sys2Proof.Machine

/-- `FSM`, the sequencer's state register and the block's program counter (R24). The codes 11 to 15 are unreachable
and left out (R72, V3). -/
inductive Fsm where
  /-- `S_IDLE`: waits for a command (R83). -/
  | idle
  /-- `S_CFG_W`: configuration flush (R84). -/
  | cfgW
  /-- `S_FC_SET`: fault-clear strobe, first write (R85). -/
  | fcSet
  /-- `S_FC_CLR`: fault-clear strobe, second write (R86). -/
  | fcClr
  /-- `S_BIAS_ON_W`: bias enable (R87). -/
  | biasOnW
  /-- `S_WARMUP`: waits for ticks of `BWT` (R88). -/
  | warmup
  /-- `S_TRIG_W`: one-shot trigger (R89). -/
  | trigW
  /-- `S_CONV`: waits for ticks of `CTC` (R90). -/
  | conv
  /-- `S_RTD_R`: raw-register read (R91). -/
  | rtdR
  /-- `S_BIAS_OFF_W`: bias disable and the fault test (R92). -/
  | biasOffW
  /-- `S_RESP`: waits for the host to take the response (R93). -/
  | resp
deriving DecidableEq, Repr

/-- `OP`, the operation in flight (R25). -/
inductive Op where
  /-- `OP_INIT`: initialisation, idle, or a rejected command. -/
  | init
  /-- `OP_CONFIGURE`. -/
  | configure
  /-- `OP_SET_BIAS`. -/
  | setBias
  /-- `OP_READ`. -/
  | read
deriving DecidableEq, Repr

/-- The 4-bit code of a sequencer state (R72). -/
def Fsm.code : Fsm → BitVec 4
  | .idle => 0#4
  | .cfgW => 1#4
  | .fcSet => 2#4
  | .fcClr => 3#4
  | .biasOnW => 4#4
  | .warmup => 5#4
  | .trigW => 6#4
  | .conv => 7#4
  | .rtdR => 8#4
  | .biasOffW => 9#4
  | .resp => 10#4

/-- The 2-bit code of an operation (R73). -/
def Op.code : Op → BitVec 2
  | .init => 0#2
  | .configure => 1#2
  | .setBias => 2#2
  | .read => 3#2

/-- The outcome a response word names (R68, R160). The codes 5 to 7 are never produced and left out (V2). -/
inductive Status where
  /-- 0: success, completion, or a raw code. -/
  | ok
  /-- 1: `WIRES` or `FILT` out of range (R161). -/
  | invalidArgument
  /-- 2: the fault bit was set on a reading (R162). -/
  | hardwareFault
  /-- 3: reserved, never raised under the auto-bias discipline (R163). -/
  | deviceOff
  /-- 4: an illegal command word (R164). -/
  | illegalCommand
deriving DecidableEq, Repr

/-- `STATUS`, bits 17:15 of the response word (R68). -/
def Status.code : Status → BitVec 3
  | .ok => 0#3
  | .invalidArgument => 1#3
  | .hardwareFault => 2#3
  | .deviceOff => 3#3
  | .illegalCommand => 4#3

/-- What the block's input lines carry in one clock: reset (R190), the command port (R60), the bus port's inputs
(R43), and the response port's input (R67). -/
structure Lines where
  /-- `rst_n`, active low. -/
  rstN : Bool
  /-- `cmd_valid`. -/
  cmdValid : Bool
  /-- `cmd_word`. -/
  cmdWord : Word
  /-- `cmd_ref`, side operand of CONFIGURE (R66). -/
  cmdRef : Bits64
  /-- `cmd_r0`, side operand of CONFIGURE (R66). -/
  cmdR0 : Bits64
  /-- `bus_ack`. -/
  busAck : Bool
  /-- `bus_rdata`: what the chip returns, a free input (R56). -/
  busRdata : Half
  /-- `resp_ready`. -/
  respReady : Bool
deriving DecidableEq, Repr

/-- A clock in which nothing outside does anything: no reset, no command offered, no acknowledge, no response taken. -/
def Lines.quiet : Lines where
  rstN := true
  cmdValid := false
  cmdWord := 0#32
  cmdRef := 0#64
  cmdR0 := 0#64
  busAck := false
  busRdata := 0#16
  respReady := false

/-- One event of the observable trace (R81). -/
inductive TraceEvent where
  /-- `Accept(word)`. -/
  | accept (w : Word)
  /-- `W(v)`: `BusWrite(REG_CFG, v)`. -/
  | write (v : Byte)
  /-- `R(d)`: `BusRead16(REG_RTD)` returned `d`. -/
  | read (d : Half)
  /-- `Delay(n)`: a timer was loaded with `n` ticks. -/
  | delay (n : Nat)
  /-- `Resp(status, code)`: a response was taken. -/
  | resp (status : BitVec 3) (code : RawCode)
deriving DecidableEq, Repr

/-- The whole machine. The first twelve fields are the elements of R10 and the ghosts of R30. The last three are the
model's own (log entries 2, 3, 4): the parameters R6 leaves OPEN, the lines of the clocks to come, and the trace. -/
structure State where
  /-- `CFG`, the configuration shadow (R11, R12). -/
  cfg : Byte
  /-- `CAL_RREF`, binary64 (R20). -/
  calRref : Bits64
  /-- `CAL_R0`, binary64 (R20). -/
  calR0 : Bits64
  /-- `FLT`, the fault status latch (R23). -/
  flt : Bool
  /-- `FSM` (R24). -/
  fsm : Fsm
  /-- `OP` (R25). -/
  op : Op
  /-- `BWT`, the bias warm-up timer (R26, R176). -/
  bwt : BitVec 4
  /-- `CTC`, the conversion timing controller (R27, R177). -/
  ctc : BitVec 6
  /-- `RAW16`, the raw capture (R22). -/
  raw16 : Half
  /-- `RESP`, the response holding register (R28). -/
  resp : RespWord
  /-- `PSC`, the prescaler (R29); its width depends on `CLK_HZ`, so it is a number. -/
  psc : Nat
  /-- Ghost `LASTW`: the last byte written to the chip (R30). -/
  lastw : Byte
  /-- Ghost `LASTW_VALID` (R30). -/
  lastwValid : Bool
  /-- The open parameters (R6); no step changes them. -/
  params : Config.Params
  /-- The input lines, one entry a clock, this clock's first; when the list is empty the lines are quiet. -/
  inputs : List Lines
  /-- The observable behaviour so far (R81), oldest first. -/
  trace : List TraceEvent
deriving DecidableEq, Repr

/-- The input lines in this clock. -/
def State.lines (s : State) : Lines := s.inputs.headD .quiet

/-- Why the machine stops. Both are raised only in states no run from reset reaches, and both are safe: R82 lists every
transition of the sequencer and gives these states none. -/
inductive Fault where
  /-- Raised by the three steps that several operations share (R86, R88, R92) when `OP` is a value the rule says
  "cannot occur here". Safe. -/
  | opCannotOccur
  /-- Raised by a tick on a timer that already stands at 0 (R94: "a decrement is never applied to 0"). Safe. -/
  | tickAtZero
deriving DecidableEq, Repr

/-- Why an instruction has no meaning. No arm of `exec` raises it. -/
inductive Refusal where
  /-- The instruction of that mnemonic is not modelled yet. Safe. -/
  | notModelled (mnemonic : String)
deriving DecidableEq, Repr

/-- The reset values of R33, for parameters `p`. `inputs` is what the outside will do. `LASTW` is arbitrary in R33 and
0 here (DESIGN CHOICE, log entry 6). -/
def State.resetWith (p : Config.Params) (inputs : List Lines) : State where
  cfg := 0x01#8 ||| (bif p.wire3Reset then 0x10#8 else 0x00#8)
  calRref := Config.rrefDefault
  calR0 := Config.r0Default
  flt := false
  fsm := .cfgW
  op := .init
  bwt := 0#4
  ctc := 0#6
  raw16 := 0#16
  resp := 0#18
  psc := 0
  lastw := 0x00#8
  lastwValid := false
  params := p
  inputs := inputs
  trace := []

/-- The machine right after reset: R33 with the default parameters, nothing done by the outside yet. -/
def State.reset : State := State.resetWith .default []

end Sys2Proof.Machine
end

