-- ==== Sys2Proof/Machine/Flags.lean ====
section
/-! DEFINITION. The bits of `CFG` (R12, R71), the fault bit and the raw code of a reading (R54, R94), and the one status
flag of the block, `FLT` (R23). -/

namespace Sys2Proof.Machine

/-! ### The configuration byte -/

/-- The mask of one bit of `CFG` (R71). -/
def bitMask (i : Nat) : Byte := 0x01#8 <<< i

/-- A bit of the byte set or cleared, the others kept (R94 (d)). -/
def putBit (i : Nat) (v : Bool) (c : Byte) : Byte := bif v then c ||| bitMask i else c &&& ~~~bitMask i

/-- The bits of `CFG` that are never set: `CMODE` and `FDC` (R13, R71). -/
def reservedMask : Byte := 0x4C#8

/-- `CFG.BIAS`. -/
def State.bias (s : State) : Bool := s.cfg.getLsbD Config.bitBias
/-- `CFG.ONESHOT`. -/
def State.oneshot (s : State) : Bool := s.cfg.getLsbD Config.bitOneshot
/-- `CFG.WIRE3`. -/
def State.wire3 (s : State) : Bool := s.cfg.getLsbD Config.bitWire3
/-- `CFG.FCLR`. -/
def State.fclr (s : State) : Bool := s.cfg.getLsbD Config.bitFclr
/-- `CFG.F50`. -/
def State.f50 (s : State) : Bool := s.cfg.getLsbD Config.bitF50

/-- `CFG.BIAS <- v`. -/
def State.setBias (s : State) (v : Bool) : State := { s with cfg := putBit Config.bitBias v s.cfg }
/-- `CFG.ONESHOT <- v`. -/
def State.setOneshot (s : State) (v : Bool) : State := { s with cfg := putBit Config.bitOneshot v s.cfg }
/-- `CFG.WIRE3 <- v`. -/
def State.setWire3 (s : State) (v : Bool) : State := { s with cfg := putBit Config.bitWire3 v s.cfg }
/-- `CFG.FCLR <- v`. -/
def State.setFclr (s : State) (v : Bool) : State := { s with cfg := putBit Config.bitFclr v s.cfg }
/-- `CFG.F50 <- v`. -/
def State.setF50 (s : State) (v : Bool) : State := { s with cfg := putBit Config.bitF50 v s.cfg }

/-- A Boolean field at its place in the byte. -/
def fieldAt (i : Nat) (v : Bool) : Byte := bif v then bitMask i else 0x00#8

/-- `ser` (R71): the configuration byte as a function of its five fields. -/
def ser (bias oneshot wire3 fclr f50 : Bool) : Byte :=
  fieldAt Config.bitBias bias ||| fieldAt Config.bitOneshot oneshot ||| fieldAt Config.bitWire3 wire3
    ||| fieldAt Config.bitFclr fclr ||| fieldAt Config.bitF50 f50

/-! ### A reading -/

/-- The fault bit of a raw value: bit 0 (R42, R54). -/
def faultBit (d : Half) : Bool := d.getLsbD 0

/-- The conversion code of a raw value: bits 15:1, a logical shift right by one (R94 (c)). -/
def rawCode (d : Half) : RawCode := d.extractLsb' 1 15

/-! ### The fault status latch -/

/-- `FLT <- 0` (R85). -/
def State.clearFlt (s : State) : State := { s with flt := false }

/-- `FLT <- FLT | d[0]` (R91). -/
def State.captureFlt (s : State) (d : Half) : State := { s with flt := s.flt || faultBit d }

end Sys2Proof.Machine
end

