-- ==== Sys2Proof/Machine/Binary64.lean ====
section
/-! DEFINITION. IEEE 754 binary64 with round to nearest, ties to even: the format of `CAL_RREF` and `CAL_R0` (R20),
`fdiv64` of R83 (spec/00_scope.md section 5), and the arithmetic of the host-side solver (R140, R143).

A number is held exactly (sign, integer significand, exponent) and rounded once, after each operation. -/

namespace Sys2Proof.Machine

/-- A binary64 datum. A finite one is `(-1)^neg * sig * 2^exp`; those the operations make are canonical: `sig < 2^53`,
and `sig` has 53 bits or `exp = -1074`. -/
inductive F64 where
  /-- Not a number. -/
  | nan
  /-- An infinity. -/
  | inf (neg : Bool)
  /-- A finite number; zeros are signed. -/
  | fin (neg : Bool) (sig : Nat) (exp : Int)
deriving DecidableEq, Repr

namespace F64

/-- `num / den` to the nearest integer, ties to even. -/
def roundNat (num den : Nat) : Nat :=
  let q := num / den
  let r := num % den
  if den < 2 * r ∨ (2 * r = den ∧ q % 2 = 1) then q + 1 else q

/-- The binary exponent of `num / den`: the largest `a` with `2^a * den ≤ num`, for positive arguments. -/
def binExp (num den : Nat) : Int :=
  let a : Int := (Nat.log2 num : Int) - (Nat.log2 den : Int)
  if den * 2 ^ a.toNat ≤ num * 2 ^ (-a).toNat then a else a - 1

/-- `(-1)^neg * (num / den) * 2^k` rounded to binary64: to 53 bits where the exponent allows, to a multiple of
`2^-1074` below, to an infinity above. -/
def round (neg : Bool) (num den : Nat) (k : Int) : F64 :=
  if num = 0 then .fin neg 0 (-1074)
  else
    let e : Int := max (binExp num den + k - 52) (-1074)
    let q := roundNat (num * 2 ^ (k - e).toNat) (den * 2 ^ (e - k).toNat)
    let q' := if q = 2 ^ 53 then 2 ^ 52 else q
    let e' := if q = 2 ^ 53 then e + 1 else e
    if 971 < e' then .inf neg else .fin neg q' e'

/-- The datum a 64-bit pattern stands for: sign 63, biased exponent 62:52, fraction 51:0. -/
def ofBits (b : Bits64) : F64 :=
  let neg := b.getLsbD 63
  let e := (b.extractLsb' 52 11).toNat
  let f := (b.extractLsb' 0 52).toNat
  if e = 2047 then (if f = 0 then .inf neg else .nan)
  else if e = 0 then .fin neg f (-1074)
  else .fin neg (2 ^ 52 + f) ((e : Int) - 1075)

/-- The pattern of sign, biased exponent and fraction. -/
def packFields (neg : Bool) (e f : Nat) : Bits64 :=
  BitVec.ofNat 64 ((if neg then 2 ^ 63 else 0) + e * 2 ^ 52 + f)

/-- `v` made a NaN pattern: exponent all ones, sign and fraction of `v`, the fraction 2^51 where that of `v` is 0. Every
NaN pattern is the image of itself. -/
def asNanBits (v : Bits64) : Bits64 :=
  let f := (v.extractLsb' 0 52).toNat
  packFields (v.getLsbD 63) 2047 (if f = 0 then 2 ^ 51 else f)

/-- The pattern of a canonical datum; a NaN takes the pattern `nanBits`. -/
def toBits (nanBits : Bits64) : F64 → Bits64
  | .nan => asNanBits nanBits
  | .inf neg => packFields neg 2047 0
  | .fin neg sig exp =>
    if sig < 2 ^ 52 then packFields neg 0 sig else packFields neg (exp + 1075).toNat (sig - 2 ^ 52)

/-- Sign change. -/
def neg : F64 → F64
  | .nan => .nan
  | .inf s => .inf (!s)
  | .fin s m e => .fin (!s) m e

/-- Magnitude. -/
def abs : F64 → F64
  | .nan => .nan
  | .inf _ => .inf false
  | .fin _ m e => .fin false m e

/-- The signed significand scaled to the exponent `k ≤ e`. -/
def scaled (s : Bool) (m : Nat) (e k : Int) : Int :=
  let v : Int := ((m * 2 ^ (e - k).toNat : Nat) : Int)
  if s then -v else v

/-- Addition. An exact zero sum of operands of unlike sign is +0. -/
def add : F64 → F64 → F64
  | .nan, _ => .nan
  | _, .nan => .nan
  | .inf s, .inf t => if s = t then .inf s else .nan
  | .inf s, .fin _ _ _ => .inf s
  | .fin _ _ _, .inf t => .inf t
  | .fin s m e, .fin t n f =>
    let k := min e f
    let v := scaled s m e k + scaled t n f k
    if v = 0 then .fin (s && t) 0 (-1074) else round (decide (v < 0)) v.natAbs 1 k

/-- Subtraction. -/
def sub (a b : F64) : F64 := add a (neg b)

/-- Multiplication. -/
def mul : F64 → F64 → F64
  | .nan, _ => .nan
  | _, .nan => .nan
  | .inf s, .inf t => .inf (s ^^ t)
  | .inf s, .fin t n _ => if n = 0 then .nan else .inf (s ^^ t)
  | .fin s m _, .inf t => if m = 0 then .nan else .inf (s ^^ t)
  | .fin s m e, .fin t n f => round (s ^^ t) (m * n) 1 (e + f)

/-- Division. -/
def div : F64 → F64 → F64
  | .nan, _ => .nan
  | _, .nan => .nan
  | .inf _, .inf _ => .nan
  | .inf s, .fin t _ _ => .inf (s ^^ t)
  | .fin s _ _, .inf t => .fin (s ^^ t) 0 (-1074)
  | .fin s m e, .fin t n f =>
    if n = 0 then (if m = 0 then .nan else .inf (s ^^ t)) else round (s ^^ t) m n (e - f)

/-- Comparison `a < b`; false where either is a NaN. -/
def lt : F64 → F64 → Bool
  | .nan, _ => false
  | _, .nan => false
  | .inf s, .inf t => s && !t
  | .inf s, .fin _ _ _ => s
  | .fin _ _ _, .inf t => !t
  | .fin s m e, .fin t n f => decide (scaled s m e (min e f) < scaled t n f (min e f))

/-- Comparison `a == b`; false where either is a NaN, true of the two zeros. -/
def eq : F64 → F64 → Bool
  | .nan, _ => false
  | _, .nan => false
  | .inf s, .inf t => s == t
  | .inf _, .fin _ _ _ => false
  | .fin _ _ _, .inf _ => false
  | .fin s m e, .fin t n f => decide (scaled s m e (min e f) = scaled t n f (min e f))

/-- The datum of an integer's magnitude (exact below 2^53). -/
def ofNat (n : Nat) : F64 := round false n 1 0

end F64

/-- `fdiv64(a, b)` on patterns (spec/00_scope.md section 5). Where the quotient is a NaN its pattern is a free value of
the two operands (log entry 5). -/
def fdiv64 (a b : Bits64) : Bits64 :=
  F64.toBits (Config.nanQuotient a b) (F64.div (F64.ofBits a) (F64.ofBits b))

end Sys2Proof.Machine
end

