-- ==== Sys2Proof/Machine/Operands.lean ====
section
/-! DEFINITION. Operand assembly of CONFIGURE (R69, R83): the argument tests, the two bits that reach `CFG`, and the two
values that reach the calibration registers. The other commands have no operand to assemble (R64, R65). -/

namespace Sys2Proof.Machine

/-- `wires_ok` (R69): "wires must be in [2,4]". -/
def wiresOk (wires : Nat) : Bool := wires == 2 || wires == 3 || wires == 4

/-- `filt_ok` (R69): "filter_hz must be exactly 50 or 60". -/
def filtOk (filt : Nat) : Bool := filt == 50 || filt == 60

/-- Both argument tests of CONFIGURE (R111). -/
def argumentsOk (filt wires : Nat) : Bool := wiresOk wires && filtOk filt

/-- `new_WIRE3` (R69): 2 and 4 both give 0. -/
def newWire3 (wires : Nat) : Bool := wires == 3

/-- `new_F50` (R69): the polarity that selects 50 Hz where the filter is 50 (R14). -/
def newF50 (filt : Nat) : Bool := if filt = 50 then Config.f50Polarity else !Config.f50Polarity

/-- The new `CAL_RREF` (R83): `cmd_ref` where `RV` says it carries one, else the default. -/
def newRref (rv : Bool) (s : State) : Bits64 := bif rv then s.lines.cmdRef else Config.rrefDefault

/-- The new `CAL_R0` (R83): `cmd_r0` where `ZV` says it carries one, else a quarter of the new reference (R114). -/
def newR0 (rv zv : Bool) (s : State) : Bits64 :=
  bif zv then s.lines.cmdR0 else fdiv64 (newRref rv s) Config.four

end Sys2Proof.Machine
end

