-- ==== Sys2Proof/Machine/Ops.lean ====
section
/-! DEFINITION. The named operations of the rules' pseudocode (spec/00_scope.md section 5): the one store and the one
load of the block (`BusWrite`, `BusRead16`), `Respond`, reporting an error and the return from it, loading a timer,
accepting only in `S_IDLE`, reset, and the end of a clock. -/

namespace Sys2Proof.Machine

/-! ### Trace and control -/

/-- An event of the trace (R81). -/
def State.emit (s : State) (e : TraceEvent) : State := { s with trace := s.trace ++ [e] }

/-- `FSM <- f`. -/
def State.goto (s : State) (f : Fsm) : State := { s with fsm := f }

/-- `OP <- o`. -/
def State.setOp (s : State) (o : Op) : State := { s with op := o }

/-! ### The bus (R44, R45) -/

/-- `BusWrite(REG_CFG, v)`: the ghost takes `v` and the trace records it (R44). -/
def State.busWrite (s : State) (v : Byte) : State :=
  { s with lastw := v, lastwValid := true, trace := s.trace ++ [.write v] }

/-- `Flush()`: the whole byte `CFG` to the chip's configuration register. -/
def State.flush (s : State) : State := s.busWrite s.cfg

/-- `RAW16 <- BusRead16(REG_RTD)`, where the read returned `d`, unchanged (R45, R91). -/
def State.busRead16 (s : State) (d : Half) : State := { s with raw16 := d, trace := s.trace ++ [.read d] }

/-! ### Responses, errors, and the return to idle (R68, R166, R168) -/

/-- A response word: `STATUS` in 17:15, `CODE` in 14:0 (R68). -/
def respWord (st : Status) (code : RawCode) : RespWord := st.code ++ code

/-- `STATUS` of a response word. -/
def respStatus (r : RespWord) : BitVec 3 := r.extractLsb' 15 3

/-- `CODE` of a response word. -/
def respCode (r : RespWord) : RawCode := r.extractLsb' 0 15

/-- `Respond(status, code)`: `RESP <- {status, code}; FSM <- S_RESP`. -/
def State.respond (s : State) (st : Status) (code : RawCode) : State :=
  { s with resp := respWord st code, fsm := .resp }

/-- `raise <Status>` (R166): an error is reported as `Respond(status, 0)`; nothing is saved, no mode or mask changes. -/
def State.raise (s : State) (st : Status) : State := s.respond st 0#15

/-- A rejected command (R83): `OP <- OP_INIT` and the error, with no other effect. -/
def State.reject (s : State) (st : Status) : State := (s.setOp .init).raise st

/-- The response is taken and the block is idle again (R93, R168), the return from an error as from a success. -/
def State.takeResponse (s : State) : State :=
  { s with resp := 0#18, raw16 := 0#16, op := .init, fsm := .idle,
           trace := s.trace ++ [.resp (respStatus s.resp) (respCode s.resp)] }

/-! ### The timers (R26, R27, R29, R175) -/

/-- The conversion delay that the shadow's filter bit selects, in ticks (R89, R134). -/
def State.convTicks (s : State) : Nat :=
  bif s.f50 == Config.f50Polarity then Config.convTicks50 else Config.convTicks60

/-- `BWT <- WARMUP_TICKS`, the prescaler restarted, `Delay` in the trace (R87). -/
def State.loadWarmup (s : State) : State :=
  { s with bwt := BitVec.ofNat 4 Config.warmupTicks, psc := 0, trace := s.trace ++ [.delay Config.warmupTicks] }

/-- `CTC <- 63 or 53`, the prescaler restarted, `Delay` in the trace (R89). -/
def State.loadConv (s : State) : State :=
  { s with ctc := BitVec.ofNat 6 s.convTicks, psc := 0, trace := s.trace ++ [.delay s.convTicks] }

/-- The prescaler wraps in this clock, so this clock ends with a tick (R29). -/
def State.pscWraps (s : State) : Bool := s.params.clkKHz ≤ s.psc + 1

/-- The prescaler counts one clock without wrapping. -/
def State.pscCount (s : State) : State := { s with psc := s.psc + 1 }

/-- The prescaler wraps. -/
def State.pscWrap (s : State) : State := { s with psc := 0 }

/-! ### Acceptance, reset, clocks -/

/-- R60, R95, R201: dispatch happens in `S_IDLE` only; outside it an offered command changes nothing and waits. -/
def whenIdle (s : State) (dispatch : State → State) : Host.Outcome State Fault Refusal :=
  if s.fsm = .idle then .next (dispatch s) else .next s

/-- Reset (R190): every state element takes its value of R33. What has been observed so far, the lines and the
parameters are not elements of the block and stay. -/
def State.applyReset (s : State) : State :=
  { State.resetWith s.params s.inputs with trace := s.trace }

/-- The register contents in this clock: reset acts asynchronously (R190). -/
def State.now (s : State) : State := bif s.lines.rstN then s else s.applyReset

/-- The clock ends: the lines of the next clock come up. -/
def State.endClock (s : State) : State := { s with inputs := s.inputs.tail }

/-- The lines of this clock replaced. -/
def State.withLines (s : State) (l : Lines) : State := { s with inputs := l :: s.inputs.tail }

/-- A command offered in this clock, with reset released; the side operands stay as the lines have them (R60, R66). -/
def State.offer (s : State) (w : Word) : State :=
  s.withLines { s.lines with rstN := true, cmdValid := true, cmdWord := w }

/-- An outcome with its next state changed by `f`. -/
def afterward (o : Host.Outcome State Fault Refusal) (f : State → State) : Host.Outcome State Fault Refusal :=
  match o with
  | .next s => .next (f s)
  | .fault r => .fault r
  | .refused r => .refused r

end Sys2Proof.Machine
end

