-- ==== Sys2Proof/Machine/Commands.lean ====
section
/-! DEFINITION. The meanings of the three commands: the dispatch step R83, which accepts a command in `S_IDLE` and sends
the sequencer down the command's chain (R110, R120, R130). The steps of the chain are in Sequencer.lean. -/

namespace Sys2Proof.Machine

/-- A valid CONFIGURE at acceptance (R83): both bits recomputed, both calibration registers overwritten, and the
chain of R110 begun; `BIAS`, `ONESHOT`, `FCLR` and `FLT` are not touched (R115). -/
def State.beginConfigure (s : State) (rv zv : Bool) (filt wires : Nat) : State :=
  { (((s.setF50 (newF50 filt)).setWire3 (newWire3 wires)).setOp .configure).goto .cfgW with
    calRref := newRref rv s, calR0 := newR0 rv zv s }

/-- CONFIGURE (R110, R111): the argument tests come first; a bad argument is reported with no other effect. -/
def execConfigure (rv zv : Bool) (filt wires : Nat) (s : State) : Host.Outcome State Fault Refusal :=
  whenIdle s fun s =>
    bif argumentsOk filt wires then s.beginConfigure rv zv filt wires else s.reject .invalidArgument

/-- SET_BIAS (R120): the bias-on chain or the bias-off chain, with no test of the bit's old value (R122). -/
def execSetBias (en : Bool) (s : State) : Host.Outcome State Fault Refusal :=
  whenIdle s fun s => (s.setOp .setBias).goto (bif en then .biasOnW else .biasOffW)

/-- READ (R130): the eight-step acquisition, whatever `CFG.BIAS` is (R136). -/
def execRead (s : State) : Host.Outcome State Fault Refusal :=
  whenIdle s fun s => (s.setOp .read).goto .fcSet

end Sys2Proof.Machine
end

