-- ==== Sys2Proof/Machine/Dispatch.lean ====
section
/-! DEFINITION. One arm per command. -/

namespace Sys2Proof.Machine

/-- What accepting a command does. -/
def exec (i : Instr) (s : State) : Host.Outcome State Fault Refusal :=
  match i with
  | .configure rv zv filt wires => Sys2Proof.Machine.execConfigure rv zv filt wires s
  | .setBias en => Sys2Proof.Machine.execSetBias en s
  | .read => Sys2Proof.Machine.execRead s

end Sys2Proof.Machine
end

