-- ==== Sys2Proof/Machine/Sequencer.lean ====
section
/-! DEFINITION. The micro-operations: what the sequencer does in each state but `S_IDLE`, one definition per rule R84
to R93. In every bus-write step the change of `CFG` precedes the flush (R43). -/

namespace Sys2Proof.Machine

/-! ### Bus writes, at `WriteDone` -/

/-- R84, `S_CFG_W`: configuration flush. -/
def microCfgW (s : State) : State := s.flush.goto .fcSet

/-- R85, `S_FC_SET`: fault-clear strobe, first write. -/
def microFcSet (s : State) : State := ((s.setFclr true).flush.clearFlt).goto .fcClr

/-- R86, `S_FC_CLR`: fault-clear strobe, second write. "`OP = OP_SET_BIAS` cannot occur here". -/
def microFcClr (s : State) : Host.Outcome State Fault Refusal :=
  let t := (s.setFclr false).flush
  match s.op with
  | .read => .next (t.goto .biasOnW)
  | .configure => .next (t.respond .ok 0#15)
  | .init => .next (t.goto .idle)
  | .setBias => .fault .opCannotOccur

/-- R87, `S_BIAS_ON_W`: bias enable and the start of the warm-up. -/
def microBiasOnW (s : State) : State := ((s.setBias true).flush.loadWarmup).goto .warmup

/-- R89, `S_TRIG_W`: one-shot trigger and the start of the conversion delay. -/
def microTrigW (s : State) : State := ((s.setOneshot true).flush.loadConv).goto .conv

/-- R92, `S_BIAS_OFF_W`: bias disable, and the fault test of a READ. "`OP_CONFIGURE` and `OP_INIT` cannot occur here". -/
def microBiasOffW (s : State) : Host.Outcome State Fault Refusal :=
  let t := (s.setBias false).flush
  match s.op with
  | .read => .next (bif faultBit s.raw16 then t.raise .hardwareFault else t.respond .ok (rawCode s.raw16))
  | .setBias => .next (t.respond .ok 0#15)
  | .init => .fault .opCannotOccur
  | .configure => .fault .opCannotOccur

/-! ### The bus read, at `ReadDone(d)` -/

/-- R91, `S_RTD_R`: raw-register read. -/
def microRtdR (d : Half) (s : State) : State := ((s.busRead16 d).captureFlt d).goto .biasOffW

/-! ### Timed waits, at `Tick` -/

/-- The count of the warm-up timer taken down by one tick (R88). -/
def State.tickBwt (s : State) : State := { s with bwt := s.bwt - 1#4 }

/-- The count of the conversion timer taken down by one tick (R90). -/
def State.tickCtc (s : State) : State := { s with ctc := s.ctc - 1#6 }

/-- R88, `S_WARMUP`. -/
def microWarmup (s : State) : Host.Outcome State Fault Refusal :=
  if s.bwt = 0#4 then .fault .tickAtZero
  else if s.bwt = 1#4 then
    match s.op with
    | .read => .next (s.tickBwt.goto .trigW)
    | .setBias => .next (s.tickBwt.respond .ok 0#15)
    | .init => .fault .opCannotOccur
    | .configure => .fault .opCannotOccur
  else .next s.tickBwt

/-- R90, `S_CONV`: on the last tick `ONESHOT` is cleared with no bus write (R17). -/
def microConv (s : State) : Host.Outcome State Fault Refusal :=
  if s.ctc = 0#6 then .fault .tickAtZero
  else if s.ctc = 1#6 then .next ((s.tickCtc.setOneshot false).goto .rtdR)
  else .next s.tickCtc

/-! ### The response, at `Take` -/

/-- R93, `S_RESP`. -/
def microResp (s : State) : State := s.takeResponse

end Sys2Proof.Machine
end

