-- ==== Sys2Proof/Machine/Events.lean ====
section
/-! DEFINITION. The step model (R80): the events, which of them the lines and the prescaler raise in a clock, and what
an event does in a state. An event that does not enable the step of the current state changes nothing (R95). -/

namespace Sys2Proof.Machine

/-- What can happen in one clock. -/
inductive Event where
  /-- `rst_n` is asserted (R190). -/
  | reset
  /-- `Accept`: a command word is offered; its side operands stand on the lines. -/
  | accept (w : Word)
  /-- `WriteDone`: the collaborator acknowledges a write. -/
  | writeDone
  /-- `ReadDone(d)`: the collaborator acknowledges a read that returned `d`. -/
  | readDone (d : Half)
  /-- `Tick`: the prescaler wraps in a timed wait. -/
  | tick
  /-- `Take`: the host takes the response. -/
  | take
  /-- A clock of a timed wait between two ticks. -/
  | count
  /-- Nothing the current state listens to. -/
  | none
deriving DecidableEq, Repr

/-- The event of this clock: reset overrides everything (R169, R190); otherwise each state listens to one kind of event
only (R80). The prescaler counts in the timed waits (log entry 7). -/
def enabledEvent (s : State) : Event :=
  bif !s.lines.rstN then .reset
  else
    match s.fsm with
    | .idle => bif s.lines.cmdValid then .accept s.lines.cmdWord else .none
    | .cfgW => bif s.lines.busAck then .writeDone else .none
    | .fcSet => bif s.lines.busAck then .writeDone else .none
    | .fcClr => bif s.lines.busAck then .writeDone else .none
    | .biasOnW => bif s.lines.busAck then .writeDone else .none
    | .warmup => bif s.pscWraps then .tick else .count
    | .trigW => bif s.lines.busAck then .writeDone else .none
    | .conv => bif s.pscWraps then .tick else .count
    | .rtdR => bif s.lines.busAck then .readDone s.lines.busRdata else .none
    | .biasOffW => bif s.lines.busAck then .writeDone else .none
    | .resp => bif s.lines.respReady then .take else .none

/-- `Accept(w)` (R83): the word is sampled and decoded once; an illegal word is answered with `ILLEGAL_COMMAND` (R164).
Outside `S_IDLE` nothing is accepted (R60). -/
def acceptWord (w : Word) (s : State) : Host.Outcome State Fault Refusal :=
  if s.fsm = .idle then
    match decode w with
    | .ok i => exec i (s.emit (.accept w))
    | .error _ => .next ((s.emit (.accept w)).reject .illegalCommand)
  else .next s

/-- `WriteDone`: the step of the current bus-write state. -/
def writeDone (s : State) : Host.Outcome State Fault Refusal :=
  match s.fsm with
  | .cfgW => .next (microCfgW s)
  | .fcSet => .next (microFcSet s)
  | .fcClr => microFcClr s
  | .biasOnW => .next (microBiasOnW s)
  | .trigW => .next (microTrigW s)
  | .biasOffW => microBiasOffW s
  | .idle => .next s
  | .warmup => .next s
  | .conv => .next s
  | .rtdR => .next s
  | .resp => .next s

/-- `Tick`: the prescaler wraps and the running timer counts. -/
def tick (s : State) : Host.Outcome State Fault Refusal :=
  match s.fsm with
  | .warmup => microWarmup s.pscWrap
  | .conv => microConv s.pscWrap
  | .idle => .next s
  | .cfgW => .next s
  | .fcSet => .next s
  | .fcClr => .next s
  | .biasOnW => .next s
  | .trigW => .next s
  | .rtdR => .next s
  | .biasOffW => .next s
  | .resp => .next s

/-- What an event does in a state. -/
def deliver (e : Event) (s : State) : Host.Outcome State Fault Refusal :=
  match e with
  | .reset => .next s.applyReset
  | .accept w => acceptWord w s
  | .writeDone => writeDone s
  | .readDone d => .next (if s.fsm = .rtdR then microRtdR d s else s)
  | .tick => tick s
  | .take => .next (if s.fsm = .resp then microResp s else s)
  | .count => .next (if s.fsm = .warmup ∨ s.fsm = .conv then s.pscCount else s)
  | .none => .next s

/-- One clock: its event, and then the lines of the next clock. -/
def clock (s : State) : Host.Outcome State Fault Refusal := afterward (deliver (enabledEvent s) s) State.endClock

/-- `s` about to accept the word `w` (Step.lean's `withFetchWord`): `S_IDLE`, the only state that accepts (R60), with
`w` offered. -/
def presentWord (s : State) (w : Word) : State := (s.goto .idle).offer w

end Sys2Proof.Machine
end

