-- ==== Sys2Proof/Machine/Step.lean ====
section
/-! DEFINITION. The machine's step: one clock of the block. -/

namespace Sys2Proof.Machine

/-- One clock. -/
def step (s : State) : Host.Outcome State Fault Refusal := clock s

/-- `s` with the command word `w` offered on the command port and the sequencer in `S_IDLE`, so that the very next step
accepts it (log entry 8 says how a program comes to run from reset). -/
def State.withFetchWord (s : State) (nbits w : Nat) : State := presentWord s (BitVec.ofNat 32 (w % 2 ^ nbits))

end Sys2Proof.Machine
end

