-- ==== Sys2Proof/Machine/Outputs.lean ====
section
/-! DEFINITION. The block's outputs, combinational functions of the state (R31, R43, R60, R67). While reset is asserted
they are those of the reset values, and nothing is requested (R190). -/

namespace Sys2Proof.Machine

/-- A request on the bus port (R43): `bus_we`, `bus_idx`, `bus_wdata`. The lines say nothing while `bus_req = 0`. -/
inductive BusRequest where
  /-- `bus_we = 1`: an 8-bit register write. -/
  | write (idx v : Byte)
  /-- `bus_we = 0`: a 16-bit register read. -/
  | read (idx : Byte)
deriving DecidableEq, Repr

/-- The request of a bus state: `bus_wdata` is "the value `CFG` has after the step's mutation" (R43), so the byte is the
one the step will flush. -/
def State.busRequest (s : State) : Option BusRequest :=
  match s.fsm with
  | .cfgW => some (.write Config.regCfg s.cfg)
  | .fcSet => some (.write Config.regCfg (s.setFclr true).cfg)
  | .fcClr => some (.write Config.regCfg (s.setFclr false).cfg)
  | .biasOnW => some (.write Config.regCfg (s.setBias true).cfg)
  | .trigW => some (.write Config.regCfg (s.setOneshot true).cfg)
  | .biasOffW => some (.write Config.regCfg (s.setBias false).cfg)
  | .rtdR => some (.read Config.regRtd)
  | .idle => none
  | .warmup => none
  | .conv => none
  | .resp => none

/-- Every output of the block in one clock. -/
structure Outputs where
  /-- `cmd_ready` (R60). -/
  cmdReady : Bool
  /-- `resp_valid` (R67). -/
  respValid : Bool
  /-- `resp_word` (R67). -/
  respWord : RespWord
  /-- `busy` (R31). -/
  busy : Bool
  /-- `flt` (R31). -/
  flt : Bool
  /-- `cfg_shadow` (R31). -/
  cfgShadow : Byte
  /-- `cal_rref` (R31). -/
  calRref : Bits64
  /-- `cal_r0` (R31). -/
  calR0 : Bits64
  /-- `bus_req` and, while it is 1, what is requested (R43). -/
  bus : Option BusRequest
deriving DecidableEq, Repr

/-- The outputs in this clock. -/
def State.outputs (s : State) : Outputs where
  cmdReady := s.now.fsm = .idle
  respValid := s.now.fsm = .resp
  respWord := s.now.resp
  busy := s.now.fsm ≠ .idle
  flt := s.now.flt
  cfgShadow := s.now.cfg
  calRref := s.now.calRref
  calR0 := s.now.calR0
  bus := bif s.lines.rstN then s.busRequest else none

end Sys2Proof.Machine
end

