-- ==== Sys2Proof/Machine/Solver.lean ====
section
/-! DEFINITION. The host-side Temperature Solver of spec/45_temperature_solver.md (R140 to R146). It is no part of the
block (R3, R4): it consumes the code of an `OK` response to READ and the two calibration outputs. It is here because its
rules are in the spec; no step of the machine uses it. -/

namespace Sys2Proof.Machine.Solver

/-- A result of the iterative solver (R144, R146). -/
inductive Result where
  /-- A temperature, or the root of the generic iteration. -/
  | converged (x : F64)
  /-- `DidNotConverge`. -/
  | didNotConverge
deriving DecidableEq, Repr

/-- The constant `A` of R143. -/
def coeffA : F64 := F64.ofBits 0x3F7002264AED641C#64
/-- The constant `B` of R143. -/
def coeffB : F64 := F64.ofBits 0xBEA360AFEE19CE88#64
/-- The constant `C` of R143. -/
def coeffC : F64 := F64.ofBits 0xBD9265A68BB608C3#64

/-- `simpleTemperature(rawCode) = rawCode / 32.0 - 256.0` (R141). -/
def simpleTemperature (code : RawCode) : F64 :=
  ((F64.ofNat code.toNat).div (F64.ofNat 32)).sub (F64.ofNat 256)

/-- `f(t)` in the operation order of R143. -/
def cvd (t : F64) : F64 :=
  let linear := (F64.ofNat 1).add (coeffA.mul t)
  let quadratic := (coeffB.mul t).mul t
  let cubic := ((((F64.ofNat 100).mul coeffC).mul t).mul t).mul t
  let quartic := (((coeffC.mul t).mul t).mul t).mul t
  ((linear.add quadratic).sub cubic).add quartic

/-- `f'(t)` in the operation order of R143. -/
def cvdDeriv (t : F64) : F64 :=
  let linear := coeffA.add (((F64.ofNat 2).mul coeffB).mul t)
  let quadratic := (((F64.ofNat 300).mul coeffC).mul t).mul t
  let cubic := ((((F64.ofNat 4).mul coeffC).mul t).mul t).mul t
  (linear.sub quadratic).add cubic

/-- `next == prev`, where there is an iterate before `x` (R144). -/
def returnsTo (next : F64) : Option F64 → Bool
  | none => false
  | some p => next.eq p

/-- Which end of a cycle of period two is closer to the goal; on a tie `x` (R144). -/
def closer (f : F64 → F64) (goal x next : F64) : F64 :=
  if ((f next).sub goal).abs.lt ((f x).sub goal).abs then next else x

/-- `passes` passes of the loop of R144, from the iterate `x` with the iterate `prev` before it. -/
def iterate (f f' : F64 → F64) (goal : F64) : Nat → Option F64 → F64 → Result
  | 0, _, _ => .didNotConverge
  | passes + 1, prev, x =>
    let residual := (f x).sub goal
    if residual.eq (F64.ofNat 0) then .converged x
    else
      let next := x.sub (residual.div (f' x))
      if next.eq x then .converged x
      else if returnsTo next prev then .converged (closer f goal x next)
      else iterate f f' goal passes (some x) next

/-- `newton(f, f', goal, x0)`: at most 100 passes (R144). -/
def newton (f f' : F64 → F64) (goal x0 : F64) : Result := iterate f f' goal 100 none x0

/-- `r_rtd = (rawCode * r_ref) / 32768.0` (R142, R143). -/
def measuredResistance (code : RawCode) (rRef : F64) : F64 :=
  ((F64.ofNat code.toNat).mul rRef).div (F64.ofNat 32768)

/-- The invariant of R21 on one calibration value: it is positive. -/
def positive (x : F64) : Bool := (F64.ofNat 0).lt x

/-- `preciseTemperature(rawCode, r_ref, r0)` (R142), on the patterns that the block exports. For calibration that is
not positive the result is a free value (log entry 16). -/
def preciseTemperature (code : RawCode) (rRef r0 : Bits64) : Result :=
  if positive (F64.ofBits rRef) && positive (F64.ofBits r0) then
    newton cvd cvdDeriv ((measuredResistance code (F64.ofBits rRef)).div (F64.ofBits r0)) (F64.ofNat 0)
  else
    match Config.anyTemperature code rRef r0 with
    | some t => .converged (F64.ofBits t)
    | none => .didNotConverge

end Sys2Proof.Machine.Solver
end

