-- ==== Sys2Proof/Machine/Pseudo.lean ====
section
/-! DEFINITION. The spec's way of writing commands (R75) and the pseudo-commands (R76): host-side compositions over the
command port, the response word and the solver. -/

namespace Sys2Proof.Machine

/-- A line of R75's notation. A calibration operand is present or absent, and is the pattern its literal stands for. -/
inductive AsmLine where
  /-- `CONFIGURE wires=.. filter=.. [ref=..] [r0=..]`. -/
  | configure (wires filt : Nat) (ref r0 : Option Bits64)
  /-- `SETBIAS on | off`. -/
  | setBias (on : Bool)
  /-- `READ`. -/
  | read
deriving DecidableEq, Repr

/-- The command of a line: `ref=` present sets `RV`, `r0=` present sets `ZV` (R75). -/
def AsmLine.instr : AsmLine → Instr
  | .configure wires filt ref r0 => .configure ref.isSome r0.isSome filt wires
  | .setBias on => .setBias on
  | .read => .read

/-- The lines that offer a line's command: its word, and its side operands where present; an absent one stays as `l`
has it, since it "may hold anything" (R66). -/
def AsmLine.offeredOn (a : AsmLine) (l : Lines) : Lines :=
  match a with
  | .configure _ _ ref r0 =>
    { l with cmdValid := true, cmdWord := encode a.instr, cmdRef := ref.getD l.cmdRef, cmdR0 := r0.getD l.cmdR0 }
  | .setBias _ => { l with cmdValid := true, cmdWord := encode a.instr }
  | .read => { l with cmdValid := true, cmdWord := encode a.instr }

/-- `CONFIGURE_DEFAULT` (R76). -/
def configureDefault (p : Config.Params) : AsmLine := .configure (if p.wire3Reset then 3 else 2) 50 none none

/-- `READ_TEMP_SIMPLE` (R76): what the host makes of the response to its READ. -/
def readTempSimple (r : RespWord) : Option F64 :=
  if respStatus r = Status.ok.code then some (Solver.simpleTemperature (respCode r)) else none

/-- `READ_TEMP_PRECISE` (R76), with the calibration outputs. -/
def readTempPrecise (r : RespWord) (o : Outputs) : Option Solver.Result :=
  if respStatus r = Status.ok.code then
    some (Solver.preciseTemperature (respCode r) o.calRref o.calR0)
  else none

/-- `CLOSE` (R76, R195): reset asserted. -/
def closeLines (l : Lines) : Lines := { l with rstN := false }

end Sys2Proof.Machine
end

