-- ==== Sys2Proof/Safety.lean ====
section
/-! DEFINITION. The terms in which claims about the block are made: the invariant of every state a run from reset
reaches, those runs, the transition table of R82, the shadow invariant of R19, and what the outside does during a whole
command. -/

namespace Sys2Proof.Safety

open Sys2Proof.Machine

/-! ### The invariant -/

/-- Which operations may be in flight in a sequencer state (R82: the chains of R110, R120, R130 and R192). -/
def opAllowed : Fsm → Op → Bool
  | .idle, o => o == .init
  | .cfgW, o => o == .init || o == .configure
  | .fcSet, o => o == .init || o == .configure || o == .read
  | .fcClr, o => o == .init || o == .configure || o == .read
  | .biasOnW, o => o == .setBias || o == .read
  | .warmup, o => o == .setBias || o == .read
  | .trigW, o => o == .read
  | .conv, o => o == .read
  | .rtdR, o => o == .read
  | .biasOffW, o => o == .setBias || o == .read
  | .resp, _ => true

/-- The states between the bias-on write and the bias-off write (R87, R92). -/
def biased (f : Fsm) : Bool := f == .warmup || f == .trigW || f == .conv || f == .rtdR

/-- The states of a READ in which the fault latch has been cleared and nothing has been captured yet (R85, R91). -/
def awaitingCapture (f : Fsm) : Bool := f == .fcClr || f == .biasOnW || biased f

/-- What stands in `RESP` in `S_RESP`, by the operation it answers (R83, R86, R88, R92). -/
def answers (s : State) : Prop :=
  match s.op with
  | .init => s.resp = respWord .invalidArgument 0#15 ∨ s.resp = respWord .illegalCommand 0#15
  | .configure => s.resp = respWord .ok 0#15
  | .setBias => s.resp = respWord .ok 0#15
  | .read => s.resp = bif faultBit s.raw16 then respWord .hardwareFault 0#15 else respWord .ok (rawCode s.raw16)

/-- The shadow invariant, in the exact form of R19. -/
structure ShadowHolds (s : State) : Prop where
  /-- Outside `S_CFG_W` the shadow is the last byte written, but for bit 5. -/
  agrees : s.lastwValid = true → s.fsm ≠ .cfgW →
    s.cfg.extractLsb' 6 2 = s.lastw.extractLsb' 6 2 ∧ s.cfg.extractLsb' 0 5 = s.lastw.extractLsb' 0 5
  /-- In `S_CONV` bit 5 agrees too, and is 1. -/
  converting : s.lastwValid = true → s.fsm = .conv → s.cfg.getLsbD 5 = s.lastw.getLsbD 5 ∧ s.lastw.getLsbD 5 = true
  /-- Outside `S_CONV` the shadow's bit 5 is 0. -/
  notConverting : s.fsm ≠ .conv → s.cfg.getLsbD 5 = false

/-- What holds in every state a run from reset reaches. -/
structure Inv (s : State) : Prop where
  /-- `CLK_HZ` is a positive multiple of 1000 Hz (R6). -/
  clk : 0 < s.params.clkKHz
  /-- `OP` is one of the operations that pass through the state. -/
  op : opAllowed s.fsm s.op = true
  /-- `CMODE` and `FDC` are 0 (R13). -/
  reserved : s.cfg &&& reservedMask = 0#8
  /-- `FCLR` is 1 exactly in `S_FC_CLR` (R18). -/
  fclr : s.fclr = decide (s.fsm = .fcClr)
  /-- `ONESHOT` is 1 exactly in `S_CONV` (R17). -/
  oneshot : s.oneshot = decide (s.fsm = .conv)
  /-- Bias is on from the bias-on write to the bias-off write (R16). -/
  biasOn : biased s.fsm = true → s.bias = true
  /-- Bias is off when a READ has its response (R137). -/
  biasOff : s.fsm = .resp → s.op = .read → s.bias = false
  /-- `BWT` runs from 10 down in `S_WARMUP` (R26). -/
  bwtRuns : s.fsm = .warmup → 1 ≤ s.bwt.toNat ∧ s.bwt.toNat ≤ Config.warmupTicks
  /-- `BWT` is 0 elsewhere (R26). -/
  bwtRests : s.fsm ≠ .warmup → s.bwt = 0#4
  /-- `CTC` runs from the filter's delay down in `S_CONV` (R27). -/
  ctcRuns : s.fsm = .conv → 1 ≤ s.ctc.toNat ∧ s.ctc.toNat ≤ s.convTicks
  /-- `CTC` is 0 elsewhere (R27). -/
  ctcRests : s.fsm ≠ .conv → s.ctc = 0#6
  /-- The prescaler counts modulo `CLK_HZ / 1000` (R29). -/
  pscRuns : s.psc < s.params.clkKHz
  /-- The prescaler is 0 outside the timed waits (log entry 7). -/
  pscRests : s.fsm ≠ .warmup → s.fsm ≠ .conv → s.psc = 0
  /-- `RAW16` holds a value from the read until the response is taken (R22). -/
  rawRests : s.fsm ≠ .biasOffW → s.fsm ≠ .resp → s.raw16 = 0#16
  /-- Only a READ fills `RAW16` (R22). -/
  rawOfRead : s.op ≠ .read → s.raw16 = 0#16
  /-- `RESP` is loaded on entry into `S_RESP` (R28). -/
  respHolds : s.fsm = .resp → answers s
  /-- `RESP` is 0 elsewhere (R28). -/
  respRests : s.fsm ≠ .resp → s.resp = 0#18
  /-- `FLT` is clear between the fault-clear strobe and the read (R91). -/
  fltCleared : s.op = .read → awaitingCapture s.fsm = true → s.flt = false
  /-- After the read `FLT` is the fault bit of what was captured (R23, R91). -/
  fltCaptured : s.op = .read → s.fsm = .biasOffW ∨ s.fsm = .resp → s.flt = faultBit s.raw16
  /-- R19. -/
  shadow : ShadowHolds s

/-! ### Runs -/

/-- `s` is reached from reset, with some legal parameters and some behaviour of the outside, resets included. -/
def Reachable (s : State) : Prop :=
  ∃ (p : Config.Params) (inputs : List Lines) (n : Nat),
    0 < p.clkKHz ∧ Host.Core.run Sys2Proof.core n (State.resetWith p inputs) = .next s

/-! ### What a step emits, and the transition table -/

/-- What a step added to the trace. -/
def emitted (s t : State) : List TraceEvent := t.trace.drop s.trace.length

/-- A bus transaction (R44, R45). -/
def isBus : TraceEvent → Bool
  | .write _ => true
  | .read _ => true
  | .accept _ => false
  | .delay _ => false
  | .resp _ _ => false

/-- An accepted command. -/
def isAccept : TraceEvent → Bool
  | .accept _ => true
  | .write _ => false
  | .read _ => false
  | .delay _ => false
  | .resp _ _ => false

/-- A taken response. -/
def isResp : TraceEvent → Bool
  | .resp _ _ => true
  | .write _ => false
  | .read _ => false
  | .delay _ => false
  | .accept _ => false

/-- A command is in flight: accepted, and its response not taken (the initialisation sequence is none). -/
def commandInFlight (s : State) : Bool :=
  match s.fsm, s.op with
  | .idle, _ => false
  | .cfgW, .init => false
  | .fcSet, .init => false
  | .fcClr, .init => false
  | _, _ => true

/-- The rows of R82 for a word accepted in `S_IDLE`: the successor. -/
def acceptSuccessor (w : Word) : Fsm :=
  match decode w with
  | .error _ => .resp
  | .ok (.configure _ _ filt wires) => if argumentsOk filt wires then .cfgW else .resp
  | .ok (.setBias true) => .biasOnW
  | .ok (.setBias false) => .biasOffW
  | .ok .read => .fcSet

/-- The transition table of R82, row by row: `TableRow s e t` says that the event `e` takes the state `s` to the
successor the table gives, with the bus transaction, the delay or the response the table gives, as `t` shows. -/
inductive TableRow (s : State) : Event → State → Prop where
  | accept {w : Word} {t : State} : s.fsm = .idle → t.fsm = acceptSuccessor w → emitted s t = [.accept w] →
      TableRow s (.accept w) t
  | cfgW {t : State} : s.fsm = .cfgW → t.fsm = .fcSet → emitted s t = [.write s.cfg] → TableRow s .writeDone t
  | fcSet {t : State} : s.fsm = .fcSet → t.fsm = .fcClr → emitted s t = [.write (s.cfg ||| 0x02#8)] →
      TableRow s .writeDone t
  | fcClrRead {t : State} : s.fsm = .fcClr → s.op = .read → t.fsm = .biasOnW →
      emitted s t = [.write (s.cfg &&& 0xFD#8)] → TableRow s .writeDone t
  | fcClrConfigure {t : State} : s.fsm = .fcClr → s.op = .configure → t.fsm = .resp →
      emitted s t = [.write (s.cfg &&& 0xFD#8)] → TableRow s .writeDone t
  | fcClrInit {t : State} : s.fsm = .fcClr → s.op = .init → t.fsm = .idle →
      emitted s t = [.write (s.cfg &&& 0xFD#8)] → TableRow s .writeDone t
  | biasOnW {t : State} : s.fsm = .biasOnW → t.fsm = .warmup →
      emitted s t = [.write (s.cfg ||| 0x80#8), .delay 10] → TableRow s .writeDone t
  | warmupOn {t : State} : s.fsm = .warmup → 1 < s.bwt.toNat → t.fsm = .warmup → emitted s t = [] → TableRow s .tick t
  | warmupRead {t : State} : s.fsm = .warmup → s.bwt.toNat = 1 → s.op = .read → t.fsm = .trigW → emitted s t = [] →
      TableRow s .tick t
  | warmupSetBias {t : State} : s.fsm = .warmup → s.bwt.toNat = 1 → s.op = .setBias → t.fsm = .resp →
      emitted s t = [] → TableRow s .tick t
  | trigW {t : State} : s.fsm = .trigW → t.fsm = .conv →
      emitted s t = [.write (s.cfg ||| 0x20#8), .delay (if s.f50 then 63 else 53)] → TableRow s .writeDone t
  | convOn {t : State} : s.fsm = .conv → 1 < s.ctc.toNat → t.fsm = .conv → emitted s t = [] → TableRow s .tick t
  | convLast {t : State} : s.fsm = .conv → s.ctc.toNat = 1 → t.fsm = .rtdR → emitted s t = [] → TableRow s .tick t
  | rtdR {d : Half} {t : State} : s.fsm = .rtdR → t.fsm = .biasOffW → emitted s t = [.read d] →
      TableRow s (.readDone d) t
  | biasOffW {t : State} : s.fsm = .biasOffW → t.fsm = .resp → emitted s t = [.write (s.cfg &&& 0x7F#8)] →
      TableRow s .writeDone t
  | resp {t : State} : s.fsm = .resp → t.fsm = .idle →
      emitted s t = [.resp (respStatus s.resp) (respCode s.resp)] → TableRow s .take t

/-! ### Which lines a state hears, and when it waits -/

/-- The lines with everything the state does not listen to (R80) made quiet. -/
def heard (f : Fsm) (l : Lines) : Lines :=
  match f with
  | .idle => { Lines.quiet with cmdValid := l.cmdValid, cmdWord := l.cmdWord, cmdRef := l.cmdRef, cmdR0 := l.cmdR0 }
  | .cfgW => { Lines.quiet with busAck := l.busAck }
  | .fcSet => { Lines.quiet with busAck := l.busAck }
  | .fcClr => { Lines.quiet with busAck := l.busAck }
  | .biasOnW => { Lines.quiet with busAck := l.busAck }
  | .warmup => Lines.quiet
  | .trigW => { Lines.quiet with busAck := l.busAck }
  | .conv => Lines.quiet
  | .rtdR => { Lines.quiet with busAck := l.busAck, busRdata := l.busRdata }
  | .biasOffW => { Lines.quiet with busAck := l.busAck }
  | .resp => { Lines.quiet with respReady := l.respReady }

/-- The state is a timed wait (R80). -/
def timed (f : Fsm) : Bool := f == .warmup || f == .conv

/-- The cases of R96, in which the sequencer has no step in this clock. -/
def Waits (s : State) : Prop :=
  match s.fsm with
  | .idle => s.lines.cmdValid = false
  | .warmup => s.psc + 1 < s.params.clkKHz
  | .conv => s.psc + 1 < s.params.clkKHz
  | .resp => s.lines.respReady = false
  | _ => s.lines.busAck = false

/-- R70, bit by bit: `OPC` is none of 1, 2, 3, or a bit that the format marks "zero" is 1. -/
def IllegalWord (w : Word) : Prop :=
  (w.extractLsb' 28 4 ≠ 1#4 ∧ w.extractLsb' 28 4 ≠ 2#4 ∧ w.extractLsb' 28 4 ≠ 3#4)
  ∨ (w.extractLsb' 28 4 = 1#4 ∧ w.extractLsb' 16 10 ≠ 0#10)
  ∨ (w.extractLsb' 28 4 = 2#4 ∧ w.extractLsb' 1 27 ≠ 0#27)
  ∨ (w.extractLsb' 28 4 = 3#4 ∧ w.extractLsb' 0 28 ≠ 0#28)

/-- The argument ranges of CONFIGURE, in the words of R111. -/
def ValidArguments (filt wires : Nat) : Prop := (wires = 2 ∨ wires = 3 ∨ wires = 4) ∧ (filt = 50 ∨ filt = 60)

/-! ### What the outside does during a command -/

/-- The collaborator lets `ws` clocks pass and then acknowledges with the lines `a`. What the command port and the
response port carry meanwhile is free (R95). -/
def BusAnswer (ws : List Lines) (a : Lines) : Prop :=
  (∀ l ∈ ws, l.rstN = true ∧ l.busAck = false) ∧ a.rstN = true ∧ a.busAck = true

/-- The host lets `ws` clocks pass and then takes the response with the lines `k`. -/
def HostTakes (ws : List Lines) (k : Lines) : Prop :=
  (∀ l ∈ ws, l.rstN = true ∧ l.respReady = false) ∧ k.rstN = true ∧ k.respReady = true

/-- `ws` are `n` clocks without reset; everything else on the lines is free. -/
def Elapse (n : Nat) (ws : List Lines) : Prop := ws.length = n ∧ ∀ l ∈ ws, l.rstN = true

/-- The lines of one acknowledged transaction, in order. -/
def transact (ws : List Lines) (a : Lines) : List Lines := ws ++ [a]

/-- The command word `w` is offered in this clock. -/
def Offers (c : Lines) (w : Word) : Prop := c.rstN = true ∧ c.cmdValid = true ∧ c.cmdWord = w

end Sys2Proof.Safety
end

