-- ==== Sys2Proof/Certificates/Slice0/Obligations.lean ====
section
/-! DEFINITION. The statements for the provers, in the order of OBLIGATIONS.json. Each docstring names the rules of the
spec it formalises. -/

open Sys2Proof Sys2Proof.Machine Sys2Proof.Safety

/-! ### Encoding -/

/-- The encoding vectors 2.1 to 2.14 of spec/95_test_vectors.md. -/
def Obligations.VectorWordsDecode : Prop :=
  decode 0x10003202#32 = .ok (.configure false false 50 2) ∧
  decode 0x10003C03#32 = .ok (.configure false false 60 3) ∧
  decode 0x18003C04#32 = .ok (.configure true false 60 4) ∧
  decode 0x14003C04#32 = .ok (.configure false true 60 4) ∧
  decode 0x1C003203#32 = .ok (.configure true true 50 3) ∧
  decode 0x20000001#32 = .ok (.setBias true) ∧
  decode 0x20000000#32 = .ok (.setBias false) ∧
  decode 0x30000000#32 = .ok .read ∧
  ∀ w ∈ [0x00000000#32, 0xFFFFFFFF#32, 0x40000000#32, 0x10013203#32, 0x20000002#32, 0x30000001#32],
    ∃ e, decode w = .error e

/-- Decoding the word of a well-formed command gives the command back (R61 to R65, R75). -/
def Obligations.DecodeOfEncode : Prop := ∀ i : Instr, i.wf = true → decode (encode i) = .ok i

/-- A word has at most one meaning, and the encoder gives that word back. -/
def Obligations.EncodeOfDecode : Prop := ∀ (w : Word) (i : Instr), decode w = .ok i → i.wf = true ∧ encode i = w

/-- R63, R64, R65: match, mask and fields of the three commands. -/
def Obligations.CommandsByMatchAndMask : Prop :=
  ∀ w : Word,
    (∀ rv zv filt wires, decode w = .ok (.configure rv zv filt wires) ↔
      w &&& 0xF3FF0000#32 = 0x10000000#32 ∧ rv = w.getLsbD 27 ∧ zv = w.getLsbD 26 ∧
        filt = (w.extractLsb' 8 8).toNat ∧ wires = (w.extractLsb' 0 8).toNat) ∧
    (∀ en, decode w = .ok (.setBias en) ↔ w &&& 0xFFFFFFFE#32 = 0x20000000#32 ∧ en = w.getLsbD 0) ∧
    (decode w = .ok .read ↔ w &&& 0xFFFFFFFF#32 = 0x30000000#32)

/-! ### Acceptance and dispatch -/

/-- R60, R83: an accepted word is decoded and runs; the step around it records the acceptance and ends the clock. -/
def Obligations.StepRunsTheDecodedCommand : Prop :=
  ∀ (s : State) (i : Instr), s.fsm = .idle → s.lines.rstN = true → s.lines.cmdValid = true →
    decode s.lines.cmdWord = .ok i →
    step s = afterward (exec i (s.emit (.accept s.lines.cmdWord))) State.endClock

/-- R70, R164: which words are illegal, and all that accepting one does; a bad argument is no illegal word. -/
def Obligations.IllegalWordIsReported : Prop :=
  ∀ (s : State) (w : Word), s.fsm = .idle → s.lines.rstN = true → s.lines.cmdValid = true → s.lines.cmdWord = w →
    (IllegalWord w ↔ ∃ e, decode w = .error e) ∧
    (IllegalWord w → step s = .next { s with
      op := .init, resp := 0x20000#18, fsm := .resp, trace := s.trace ++ [.accept w], inputs := s.inputs.tail }) ∧
    (∀ rv zv filt wires, decode w = .ok (.configure rv zv filt wires) → ¬ ValidArguments filt wires →
      step s = .next { s with
        op := .init, resp := 0x08000#18, fsm := .resp, trace := s.trace ++ [.accept w], inputs := s.inputs.tail })

/-- CONFIGURE with valid arguments completes its dispatch (R69, R83, R112, R114, R115). -/
def Obligations.ConfigureCompletes : Prop :=
  ∀ (rv zv : Bool) (filt wires : Nat) (s : State), s.fsm = .idle → ValidArguments filt wires →
    exec (.configure rv zv filt wires) s = .next { s with
      cfg := (s.cfg &&& 0xEE#8) ||| (if wires = 3 then 0x10#8 else 0#8) ||| (if filt = 50 then 0x01#8 else 0#8)
      calRref := if rv then s.lines.cmdRef else 0x4079000000000000#64
      calR0 := if zv then s.lines.cmdR0
        else fdiv64 (if rv then s.lines.cmdRef else 0x4079000000000000#64) 0x4010000000000000#64
      op := .configure
      fsm := .cfgW }

/-- CONFIGURE with a bad argument (R161): reported, with no other state change than `RESP`, `OP` and `FSM`. -/
def Obligations.BadArgumentIsReported : Prop :=
  ∀ (rv zv : Bool) (filt wires : Nat) (s : State), s.fsm = .idle → ¬ ValidArguments filt wires →
    exec (.configure rv zv filt wires) s = .next { s with op := .init, resp := 0x08000#18, fsm := .resp }

/-- SET_BIAS completes its dispatch, whatever the bias bit was (R83, R122). -/
def Obligations.SetBiasCompletes : Prop :=
  ∀ (en : Bool) (s : State), s.fsm = .idle →
    exec (.setBias en) s = .next { s with op := .setBias, fsm := if en then .biasOnW else .biasOffW }

/-- READ completes its dispatch, whatever the bias bit was (R83, R136). -/
def Obligations.ReadCompletes : Prop :=
  ∀ s : State, s.fsm = .idle → exec .read s = .next { s with op := .read, fsm := .fcSet }

/-- The frame of the three commands' dispatch: no bus transaction, and nothing touched but what R83 names. Bits 7 to 5
and 3 to 1 of `CFG` stay in every case; bits 4 and 0 and the calibration change by a valid CONFIGURE alone. -/
def Obligations.DispatchFrame : Prop :=
  ∀ (i : Instr) (s t : State), exec i s = .next t →
    t.flt = s.flt ∧ t.bwt = s.bwt ∧ t.ctc = s.ctc ∧ t.raw16 = s.raw16 ∧ t.psc = s.psc ∧
    t.lastw = s.lastw ∧ t.lastwValid = s.lastwValid ∧ t.params = s.params ∧ t.inputs = s.inputs ∧ t.trace = s.trace ∧
    t.cfg &&& 0xEE#8 = s.cfg &&& 0xEE#8 ∧
    ((t.cfg ≠ s.cfg ∨ t.calRref ≠ s.calRref ∨ t.calR0 ≠ s.calR0) →
      ∃ rv zv filt wires, i = .configure rv zv filt wires ∧ ValidArguments filt wires) ∧
    (t.resp ≠ s.resp → ∃ rv zv filt wires, i = .configure rv zv filt wires ∧ ¬ ValidArguments filt wires)

/-- Outside `S_IDLE` `exec` leaves the state as it is: the model's reading (log entry 13), no rule of the spec. And, by
R60, what the command port carries makes no difference there. -/
def Obligations.BusyBlockAcceptsNothing : Prop :=
  ∀ s : State, s.fsm ≠ .idle →
    (∀ i, exec i s = .next s) ∧
    (∀ (l : Lines) (v : Bool) (w : Word) (ref r0 : Bits64),
      step (s.withLines { l with cmdValid := v, cmdWord := w, cmdRef := ref, cmdR0 := r0 }) = step (s.withLines l))

/-! ### The micro-operations -/

/-- R84. -/
def Obligations.ConfigurationFlushStep : Prop :=
  ∀ s : State, s.lines.rstN = true → s.fsm = .cfgW → s.lines.busAck = true →
    step s = .next { s with
      lastw := s.cfg, lastwValid := true, trace := s.trace ++ [.write s.cfg], fsm := .fcSet, inputs := s.inputs.tail }

/-- R85. -/
def Obligations.FaultClearSetStep : Prop :=
  ∀ s : State, s.lines.rstN = true → s.fsm = .fcSet → s.lines.busAck = true →
    step s = .next { s with
      cfg := s.cfg ||| 0x02#8, lastw := s.cfg ||| 0x02#8, lastwValid := true,
      trace := s.trace ++ [.write (s.cfg ||| 0x02#8)], flt := false, fsm := .fcClr, inputs := s.inputs.tail }

/-- R86. With `OP_SET_BIAS`, which the rule says "cannot occur here", the step stops: the model's choice (log
entry 9). -/
def Obligations.FaultClearClearStep : Prop :=
  ∀ s : State, s.lines.rstN = true → s.fsm = .fcClr → s.lines.busAck = true →
    step s = (match s.op with
      | .read => .next { s with
          cfg := s.cfg &&& 0xFD#8, lastw := s.cfg &&& 0xFD#8, lastwValid := true,
          trace := s.trace ++ [.write (s.cfg &&& 0xFD#8)], fsm := .biasOnW, inputs := s.inputs.tail }
      | .configure => .next { s with
          cfg := s.cfg &&& 0xFD#8, lastw := s.cfg &&& 0xFD#8, lastwValid := true,
          trace := s.trace ++ [.write (s.cfg &&& 0xFD#8)], resp := 0#18, fsm := .resp, inputs := s.inputs.tail }
      | .init => .next { s with
          cfg := s.cfg &&& 0xFD#8, lastw := s.cfg &&& 0xFD#8, lastwValid := true,
          trace := s.trace ++ [.write (s.cfg &&& 0xFD#8)], fsm := .idle, inputs := s.inputs.tail }
      | .setBias => .fault .opCannotOccur)

/-- R87. -/
def Obligations.BiasEnableStep : Prop :=
  ∀ s : State, s.lines.rstN = true → s.fsm = .biasOnW → s.lines.busAck = true →
    step s = .next { s with
      cfg := s.cfg ||| 0x80#8, lastw := s.cfg ||| 0x80#8, lastwValid := true, bwt := 10#4, psc := 0,
      trace := s.trace ++ [.write (s.cfg ||| 0x80#8), .delay 10], fsm := .warmup, inputs := s.inputs.tail }

/-- R88: one tick of the warm-up, for every count. In which clock a tick comes is the model's reading of R29 (log
entry 7). -/
def Obligations.WarmupTickStep : Prop :=
  ∀ s : State, s.lines.rstN = true → s.fsm = .warmup → s.params.clkKHz ≤ s.psc + 1 → s.bwt ≠ 0#4 →
    (s.bwt ≠ 1#4 → step s = .next { s with bwt := s.bwt - 1#4, psc := 0, inputs := s.inputs.tail }) ∧
    (s.bwt = 1#4 → s.op = .read →
      step s = .next { s with bwt := 0#4, psc := 0, fsm := .trigW, inputs := s.inputs.tail }) ∧
    (s.bwt = 1#4 → s.op = .setBias →
      step s = .next { s with bwt := 0#4, psc := 0, resp := 0#18, fsm := .resp, inputs := s.inputs.tail })

/-- R89, R134: the delay is taken from the filter bit of the shadow. -/
def Obligations.TriggerStep : Prop :=
  ∀ s : State, s.lines.rstN = true → s.fsm = .trigW → s.lines.busAck = true →
    step s = .next { s with
      cfg := s.cfg ||| 0x20#8, lastw := s.cfg ||| 0x20#8, lastwValid := true,
      ctc := if s.cfg.getLsbD 0 then 63#6 else 53#6, psc := 0,
      trace := s.trace ++ [.write (s.cfg ||| 0x20#8), .delay (if s.cfg.getLsbD 0 then 63 else 53)],
      fsm := .conv, inputs := s.inputs.tail }

/-- R90, R17: one tick of the conversion wait; the last one clears `ONESHOT` with no bus write. In which clock a tick
comes is the model's reading of R29 (log entry 7). -/
def Obligations.ConversionTickStep : Prop :=
  ∀ s : State, s.lines.rstN = true → s.fsm = .conv → s.params.clkKHz ≤ s.psc + 1 → s.ctc ≠ 0#6 →
    (s.ctc ≠ 1#6 → step s = .next { s with ctc := s.ctc - 1#6, psc := 0, inputs := s.inputs.tail }) ∧
    (s.ctc = 1#6 → step s = .next { s with
      ctc := 0#6, psc := 0, cfg := s.cfg &&& 0xDF#8, fsm := .rtdR, inputs := s.inputs.tail })

/-- R91, for every value the chip returns (R56). -/
def Obligations.RawReadStep : Prop :=
  ∀ s : State, s.lines.rstN = true → s.fsm = .rtdR → s.lines.busAck = true →
    step s = .next { s with
      raw16 := s.lines.busRdata, flt := s.flt || s.lines.busRdata.getLsbD 0,
      trace := s.trace ++ [.read s.lines.busRdata], fsm := .biasOffW, inputs := s.inputs.tail }

/-- R92. With an operation that the rule says "cannot occur here" the step stops: the model's choice (log entry 9). -/
def Obligations.BiasDisableStep : Prop :=
  ∀ s : State, s.lines.rstN = true → s.fsm = .biasOffW → s.lines.busAck = true →
    (s.op = .read → step s = .next { s with
      cfg := s.cfg &&& 0x7F#8, lastw := s.cfg &&& 0x7F#8, lastwValid := true,
      trace := s.trace ++ [.write (s.cfg &&& 0x7F#8)],
      resp := if s.raw16.getLsbD 0 then 0x10000#18 else (s.raw16 >>> 1).setWidth 18,
      fsm := .resp, inputs := s.inputs.tail }) ∧
    (s.op = .setBias → step s = .next { s with
      cfg := s.cfg &&& 0x7F#8, lastw := s.cfg &&& 0x7F#8, lastwValid := true,
      trace := s.trace ++ [.write (s.cfg &&& 0x7F#8)], resp := 0#18, fsm := .resp, inputs := s.inputs.tail }) ∧
    (s.op = .init ∨ s.op = .configure → step s = .fault .opCannotOccur)

/-- R93: the response is taken, and the block can accept again unless reset comes up. -/
def Obligations.TakeStep : Prop :=
  ∀ s : State, s.lines.rstN = true → s.fsm = .resp → s.lines.respReady = true →
    ∃ t, step s = .next t ∧ t = { s with
      resp := 0#18, raw16 := 0#16, op := .init, fsm := .idle,
      trace := s.trace ++ [.resp (s.resp.extractLsb' 15 3) (s.resp.extractLsb' 0 15)], inputs := s.inputs.tail } ∧
    (t.lines.rstN = true → t.outputs.cmdReady = true)

/-- R95: a state hears the lines of its own event only; whatever else they carry, the step is the same. -/
def Obligations.UnheardLinesChangeNothing : Prop :=
  ∀ (s : State) (l : Lines), l.rstN = true → step (s.withLines l) = step (s.withLines (heard s.fsm l))

/-- R96: with no event the machine stays where it is, and these are the only such cases. That a waiting clock is a step
at all is the model's reading (log entry 1), and so is that the prescaler counts in the timed waits only (R29, log
entry 7). -/
def Obligations.StaysExactlyWhileWaiting : Prop :=
  ∀ s : State, s.lines.rstN = true →
    (Waits s → step s = .next { s with
      psc := if timed s.fsm then s.psc + 1 else s.psc, inputs := s.inputs.tail }) ∧
    (Inv s → ¬ Waits s → ∀ t, step s = .next t → t.fsm ≠ s.fsm ∨ t.bwt ≠ s.bwt ∨ t.ctc ≠ s.ctc)

/-- R82: every step is a row of the table, or a wait, or reset. -/
def Obligations.StepsFollowTheTransitionTable : Prop :=
  ∀ s t : State, Inv s → step s = .next t →
    (s.lines.rstN = false → t.fsm = .cfgW ∧ t.op = .init ∧ emitted s t = []) ∧
    (s.lines.rstN = true → Waits s → t.fsm = s.fsm ∧ emitted s t = []) ∧
    (s.lines.rstN = true → ¬ Waits s → TableRow s (enabledEvent s) t)

/-! ### Reset -/

/-- R33: every element's value after a clock with reset asserted, from every state. That the parameters and the trace
stay is the model's choice (log entries 2 and 4). -/
def Obligations.ResetGivesEveryElement : Prop :=
  ∀ s : State, s.lines.rstN = false → ∃ t, step s = .next t ∧
    t.cfg = (if s.params.wire3Reset then 0x11#8 else 0x01#8) ∧
    t.calRref = 0x4079000000000000#64 ∧ t.calR0 = 0x4059000000000000#64 ∧ t.flt = false ∧ t.fsm = .cfgW ∧
    t.op = .init ∧ t.bwt = 0#4 ∧ t.ctc = 0#6 ∧ t.psc = 0 ∧ t.raw16 = 0#16 ∧ t.resp = 0#18 ∧ t.lastwValid = false ∧
    t.trace = s.trace ∧ t.params = s.params

/-- R190: reset overrides every other event, and the outputs while it is asserted and in the first clock after. Reset
is sampled once a clock (the model's reading, log entry 12). -/
def Obligations.ResetOverridesEverything : Prop :=
  ∀ (s : State) (l : Lines), l.rstN = false →
    (s.withLines l).outputs.bus = none ∧ (s.withLines l).outputs.cmdReady = false ∧
    (s.withLines l).outputs.respValid = false ∧ (s.withLines l).outputs.busy = true ∧
    (s.withLines l).outputs.cfgShadow = (if s.params.wire3Reset then 0x11#8 else 0x01#8) ∧
    (s.withLines l).outputs.flt = false ∧ (s.withLines l).outputs.calRref = 0x4079000000000000#64 ∧
    (s.withLines l).outputs.calR0 = 0x4059000000000000#64 ∧ (s.withLines l).outputs.respWord = 0#18 ∧
    ∃ t, step (s.withLines l) = .next t ∧ t = { s.applyReset with inputs := s.inputs.tail } ∧
      t.outputs.cmdReady = false ∧ t.outputs.respValid = false ∧ t.outputs.busy = true

/-- The state right after reset (R33), for all parameters, and `State.reset` as the one with the default parameters.
That default, `WIRE3_RESET = 0` and one clock a tick, is the model's choice (log entry 2). -/
def Obligations.ResetState : Prop :=
  State.reset = State.resetWith { clkKHz := 1, wire3Reset := false } [] ∧
  ∀ (p : Config.Params) (inputs : List Lines),
    (State.resetWith p inputs).cfg = (if p.wire3Reset then 0x11#8 else 0x01#8) ∧
    (State.resetWith p inputs).calRref = 0x4079000000000000#64 ∧
    (State.resetWith p inputs).calR0 = 0x4059000000000000#64 ∧
    (State.resetWith p inputs).flt = false ∧ (State.resetWith p inputs).fsm = .cfgW ∧
    (State.resetWith p inputs).op = .init ∧ (State.resetWith p inputs).bwt = 0#4 ∧
    (State.resetWith p inputs).ctc = 0#6 ∧ (State.resetWith p inputs).psc = 0 ∧
    (State.resetWith p inputs).raw16 = 0#16 ∧ (State.resetWith p inputs).resp = 0#18 ∧
    (State.resetWith p inputs).lastwValid = false ∧ (State.resetWith p inputs).trace = []

/-! ### The invariant -/

/-- The invariant holds right after reset, for every legal parameter and whatever the outside will do. -/
def Obligations.ResetMeetsTheInvariant : Prop :=
  ∀ (p : Config.Params) (inputs : List Lines), 0 < p.clkKHz → Inv (State.resetWith p inputs)

/-- Every step keeps the invariant, from every state that has it. -/
def Obligations.StepKeepsTheInvariant : Prop := ∀ s t : State, Inv s → step s = .next t → Inv t

/-- A state that has the invariant never stops: it has a next state, whatever the lines carry. -/
def Obligations.InvariantStatesNeverStop : Prop := ∀ s : State, Inv s → ∃ t, step s = .next t

/-- R35: the idle state of every run is canonical. -/
def Obligations.IdleIsCanonical : Prop :=
  ∀ s : State, Reachable s → s.fsm = .idle →
    s.op = .init ∧ s.bwt = 0#4 ∧ s.ctc = 0#6 ∧ s.raw16 = 0#16 ∧ s.resp = 0#18 ∧ s.cfg.getLsbD 5 = false ∧
    s.cfg.getLsbD 1 = false ∧ s.cfg.getLsbD 6 = false ∧ s.cfg.extractLsb' 2 2 = 0#2

/-- R19: the shadow invariant of every run. -/
def Obligations.ShadowInvariantOfRuns : Prop := ∀ s : State, Reachable s → ShadowHolds s

/-- R17, R18, R26, R27, R28: where the strobe bits are 1, and where the timers and the response register rest. -/
def Obligations.StrobesTimersAndResponseRest : Prop :=
  ∀ s : State, Reachable s →
    (s.cfg.getLsbD 5 = true ↔ s.fsm = .conv) ∧ (s.cfg.getLsbD 1 = true ↔ s.fsm = .fcClr) ∧
    s.bwt.toNat ≤ 10 ∧ (s.bwt ≠ 0#4 ↔ s.fsm = .warmup) ∧
    s.ctc.toNat ≤ (if s.cfg.getLsbD 0 then 63 else 53) ∧ (s.ctc ≠ 0#6 ↔ s.fsm = .conv) ∧
    (s.fsm ≠ .resp → s.resp = 0#18)

/-- R71, R13: the bytes a run can put on the bus, and the byte as a function of its fields. -/
def Obligations.BytesOnTheBus : Prop :=
  (∀ s : State, Reachable s → ∀ v, .write v ∈ s.trace →
    v &&& 0x4C#8 = 0#8 ∧ ¬ (v.getLsbD 5 = true ∧ v.getLsbD 1 = true)) ∧
  (∀ s : State, Inv s → ser s.bias s.oneshot s.wire3 s.fclr s.f50 = s.cfg)

/-- R67, R163, R136, R160: the responses a run can give; `DEVICE_OFF` is never among them. -/
def Obligations.ResponsesOfRuns : Prop :=
  ∀ s : State, Reachable s → ∀ st code, .resp st code ∈ s.trace →
    (st = 0#3 ∨ st = 1#3 ∨ st = 2#3 ∨ st = 4#3) ∧ (st ≠ 0#3 → code = 0#15)

/-- R67, R200: without reset, accepted commands and taken responses go in step, one response to a command. -/
def Obligations.OneResponsePerCommand : Prop :=
  ∀ s t : State, Inv s → s.lines.rstN = true → step s = .next t →
    (t.trace.filter isAccept).length + (s.trace.filter isResp).length + (commandInFlight s).toNat =
      (s.trace.filter isAccept).length + (t.trace.filter isResp).length + (commandInFlight t).toNat

/-! ### What only some steps may change -/

/-- R23: what sets and clears the fault status latch. -/
def Obligations.FaultLatchChanges : Prop :=
  ∀ s t : State, s.lines.rstN = true → step s = .next t →
    t.flt = if s.fsm = .rtdR ∧ s.lines.busAck = true then (s.flt || s.lines.busRdata.getLsbD 0)
      else if s.fsm = .fcSet ∧ s.lines.busAck = true then false else s.flt

/-- R20, R14, R15: the calibration, the filter and the wire mode change by an accepted valid CONFIGURE alone, or by
reset. -/
def Obligations.OnlyConfigureReconfigures : Prop :=
  ∀ s t : State, s.lines.rstN = true → step s = .next t →
    (t.calRref ≠ s.calRref ∨ t.calR0 ≠ s.calR0 ∨ t.cfg.getLsbD 0 ≠ s.cfg.getLsbD 0 ∨ t.cfg.getLsbD 4 ≠ s.cfg.getLsbD 4) →
    s.fsm = .idle ∧ s.lines.cmdValid = true ∧
      ∃ rv zv filt wires, decode s.lines.cmdWord = .ok (.configure rv zv filt wires) ∧ ValidArguments filt wires

/-- R201: from the first step of a READ until its response, the filter and the wire mode stay. -/
def Obligations.NoReconfigurationInFlight : Prop :=
  ∀ s t : State, s.lines.rstN = true → s.fsm ≠ .idle → step s = .next t →
    t.cfg.getLsbD 0 = s.cfg.getLsbD 0 ∧ t.cfg.getLsbD 4 = s.cfg.getLsbD 4 ∧ t.calRref = s.calRref ∧ t.calR0 = s.calR0

/-- R49: a step adds to the trace, and at most one bus transaction. -/
def Obligations.OneTransactionAtATime : Prop :=
  ∀ s t : State, step s = .next t →
    t.trace = s.trace ++ emitted s t ∧ ((emitted s t).filter isBus).length ≤ 1

/-- R6, R32: the parameters are no state, and a step takes exactly one clock of the lines. That parameters and lines
stand in the state is the model's choice (log entries 2 and 3). -/
def Obligations.ParametersStayAndLinesAdvance : Prop :=
  ∀ s t : State, step s = .next t → t.params = s.params ∧ t.inputs = s.inputs.tail

/-! ### The ports -/

/-- R43, R44: the byte on `bus_wdata` is the byte written at the acknowledge; without one, the request is held. -/
def Obligations.PortDrivesTheWrittenByte : Prop :=
  ∀ (s : State) (idx v : Byte), s.lines.rstN = true → s.outputs.bus = some (.write idx v) →
    idx = 0x00#8 ∧
    (s.lines.busAck = true → ∀ t, step s = .next t → t.lastw = v ∧ t.lastwValid = true ∧ t.cfg = v ∧
      (emitted s t).filter isBus = [.write v]) ∧
    (s.lines.busAck = false → ∀ t, step s = .next t → t.busRequest = some (.write idx v) ∧ emitted s t = [])

/-- R58, R42, R45: the configuration register is never read; the one read is of the raw register, and its 16 bits go to
`RAW16` unchanged. -/
def Obligations.OnlyTheRawRegisterIsRead : Prop :=
  ∀ (s : State) (idx : Byte), s.outputs.bus = some (.read idx) →
    idx = 0x01#8 ∧ s.fsm = .rtdR ∧ s.lines.rstN = true ∧
    (s.lines.busAck = true → ∃ t, step s = .next t ∧ t.raw16 = s.lines.busRdata ∧ t.cfg = s.cfg)

/-- R31, R60, R67: the status and port outputs outside reset. -/
def Obligations.StatusOutputs : Prop :=
  ∀ s : State, s.lines.rstN = true →
    (s.outputs.busy = true ↔ s.fsm ≠ .idle) ∧ s.outputs.flt = s.flt ∧ s.outputs.cfgShadow = s.cfg ∧
    s.outputs.calRref = s.calRref ∧ s.outputs.calR0 = s.calR0 ∧ (s.outputs.cmdReady = true ↔ s.fsm = .idle) ∧
    (s.outputs.respValid = true ↔ s.fsm = .resp) ∧ s.outputs.respWord = s.resp

/-! ### Whole commands -/

/-- R88, R175, R176: the warm-up takes exactly ten ticks, each of `CLK_HZ / 1000` clocks, whatever the lines carry. One
step is one clock, and in which clock a tick comes is the model's reading (log entries 1 and 7). -/
def Obligations.WarmupTakesTenTicks : Prop :=
  ∀ (s : State) (ws rest : List Lines), 0 < s.params.clkKHz → s.fsm = .warmup → s.bwt = 10#4 → s.psc = 0 →
    s.inputs = ws ++ rest → Elapse (10 * s.params.clkKHz) ws →
    (∀ n < 10 * s.params.clkKHz, ∃ t, Host.Core.run Sys2Proof.core n s = .next t ∧ t.fsm = .warmup) ∧
    (s.op = .read → Host.Core.run Sys2Proof.core (10 * s.params.clkKHz) s =
      .next { s with bwt := 0#4, fsm := .trigW, inputs := rest }) ∧
    (s.op = .setBias → Host.Core.run Sys2Proof.core (10 * s.params.clkKHz) s =
      .next { s with bwt := 0#4, resp := 0#18, fsm := .resp, inputs := rest })

/-- R90, R175, R177: the conversion wait takes exactly as many ticks as its timer was loaded with. One step is one
clock, and in which clock a tick comes is the model's reading (log entries 1 and 7). -/
def Obligations.ConversionTakesItsTicks : Prop :=
  ∀ (s : State) (ws rest : List Lines), 0 < s.params.clkKHz → s.fsm = .conv → s.ctc ≠ 0#6 → s.psc = 0 →
    s.inputs = ws ++ rest → Elapse (s.ctc.toNat * s.params.clkKHz) ws →
    (∀ n < s.ctc.toNat * s.params.clkKHz, ∃ t, Host.Core.run Sys2Proof.core n s = .next t ∧ t.fsm = .conv) ∧
    Host.Core.run Sys2Proof.core (s.ctc.toNat * s.params.clkKHz) s =
      .next { s with ctc := 0#6, cfg := s.cfg &&& 0xDF#8, fsm := .rtdR, inputs := rest }

/-- R130, R132, R133, R135, R137: a whole READ from an idle state, for every value the chip returns, every latency of
the collaborator and of the host, and whatever else the lines carry: its trace, its net effect, its duration. The duration
counts clocks as steps and ticks as R29 and R209 do, by the model's reading (log entries 1 and 7). -/
def Obligations.ReadNetEffect : Prop :=
  ∀ (s : State) (c a₁ a₂ a₃ a₄ a₅ a₆ k : Lines) (w₁ w₂ w₃ t₁ w₄ t₂ w₅ w₆ h rest : List Lines),
    Inv s → s.fsm = .idle → Offers c 0x30000000#32 →
    BusAnswer w₁ a₁ → BusAnswer w₂ a₂ → BusAnswer w₃ a₃ → Elapse (10 * s.params.clkKHz) t₁ →
    BusAnswer w₄ a₄ → Elapse ((if s.cfg.getLsbD 0 then 63 else 53) * s.params.clkKHz) t₂ →
    BusAnswer w₅ a₅ → BusAnswer w₆ a₆ → HostTakes h k →
    s.inputs = [c] ++ transact w₁ a₁ ++ transact w₂ a₂ ++ transact w₃ a₃ ++ t₁ ++ transact w₄ a₄ ++ t₂ ++
      transact w₅ a₅ ++ transact w₆ a₆ ++ transact h k ++ rest →
    Host.Core.run Sys2Proof.core
      (8 + w₁.length + w₂.length + w₃.length + 10 * s.params.clkKHz + w₄.length +
        (if s.cfg.getLsbD 0 then 63 else 53) * s.params.clkKHz + w₅.length + w₆.length + h.length) s =
    .next { s with
      cfg := s.cfg &&& 0x11#8
      flt := a₅.busRdata.getLsbD 0
      lastw := s.cfg &&& 0x11#8
      lastwValid := true
      inputs := rest
      trace := s.trace ++ [.accept 0x30000000#32,
        .write ((s.cfg &&& 0x80#8) ||| (s.cfg &&& 0x11#8) ||| 0x02#8),
        .write ((s.cfg &&& 0x80#8) ||| (s.cfg &&& 0x11#8)),
        .write ((s.cfg &&& 0x11#8) ||| 0x80#8), .delay 10,
        .write ((s.cfg &&& 0x11#8) ||| 0xA0#8), .delay (if s.cfg.getLsbD 0 then 63 else 53),
        .read a₅.busRdata, .write (s.cfg &&& 0x11#8),
        if a₅.busRdata.getLsbD 0 then .resp 2#3 0#15 else .resp 0#3 (a₅.busRdata.extractLsb' 1 15)] }

/-- R110, R112, R114: a whole valid CONFIGURE from an idle state. Its count of steps is of clocks (log entry 1). -/
def Obligations.ConfigureNetEffect : Prop :=
  ∀ (s : State) (c a₁ a₂ a₃ k : Lines) (w₁ w₂ w₃ h rest : List Lines) (rv zv : Bool) (filt wires : Nat) (b : Byte),
    Inv s → s.fsm = .idle → Offers c (encode (.configure rv zv filt wires)) → ValidArguments filt wires →
    b = (s.cfg &&& 0x80#8) ||| (if wires = 3 then 0x10#8 else 0#8) ||| (if filt = 50 then 0x01#8 else 0#8) →
    BusAnswer w₁ a₁ → BusAnswer w₂ a₂ → BusAnswer w₃ a₃ → HostTakes h k →
    s.inputs = [c] ++ transact w₁ a₁ ++ transact w₂ a₂ ++ transact w₃ a₃ ++ transact h k ++ rest →
    Host.Core.run Sys2Proof.core (5 + w₁.length + w₂.length + w₃.length + h.length) s =
    .next { s with
      cfg := b
      calRref := if rv then c.cmdRef else 0x4079000000000000#64
      calR0 := if zv then c.cmdR0 else fdiv64 (if rv then c.cmdRef else 0x4079000000000000#64) 0x4010000000000000#64
      flt := false
      lastw := b
      lastwValid := true
      inputs := rest
      trace := s.trace ++ [.accept (encode (.configure rv zv filt wires)), .write b, .write (b ||| 0x02#8), .write b,
        .resp 0#3 0#15] }

/-- R120, R121, R122: a whole SET_BIAS from an idle state, on and off. Its counts of steps are of clocks, and of ticks by
the model's reading (log entries 1 and 7). -/
def Obligations.SetBiasNetEffect : Prop :=
  ∀ (s : State) (c a k : Lines) (w t h rest : List Lines), Inv s → s.fsm = .idle → BusAnswer w a → HostTakes h k →
    (Offers c 0x20000001#32 → Elapse (10 * s.params.clkKHz) t →
      s.inputs = [c] ++ transact w a ++ t ++ transact h k ++ rest →
      Host.Core.run Sys2Proof.core (3 + w.length + 10 * s.params.clkKHz + h.length) s = .next { s with
        cfg := s.cfg ||| 0x80#8, lastw := s.cfg ||| 0x80#8, lastwValid := true, inputs := rest,
        trace := s.trace ++ [.accept 0x20000001#32, .write (s.cfg ||| 0x80#8), .delay 10, .resp 0#3 0#15] }) ∧
    (Offers c 0x20000000#32 → s.inputs = [c] ++ transact w a ++ transact h k ++ rest →
      Host.Core.run Sys2Proof.core (3 + w.length + h.length) s = .next { s with
        cfg := s.cfg &&& 0x7F#8, lastw := s.cfg &&& 0x7F#8, lastwValid := true, inputs := rest,
        trace := s.trace ++ [.accept 0x20000000#32, .write (s.cfg &&& 0x7F#8), .resp 0#3 0#15] })

/-- R111, R164, R166 to R169: a rejected command's whole effect is its response; reserved bits are tested before the
argument ranges. Its count of steps is of clocks (log entry 1). -/
def Obligations.RejectedCommandNetEffect : Prop :=
  ∀ (s : State) (c k : Lines) (h rest : List Lines), Inv s → s.fsm = .idle → c.rstN = true → c.cmdValid = true →
    HostTakes h k → s.inputs = [c] ++ transact h k ++ rest →
    (IllegalWord c.cmdWord → Host.Core.run Sys2Proof.core (2 + h.length) s = .next { s with
      inputs := rest, trace := s.trace ++ [.accept c.cmdWord, .resp 4#3 0#15] }) ∧
    (∀ rv zv filt wires, decode c.cmdWord = .ok (.configure rv zv filt wires) → ¬ ValidArguments filt wires →
      Host.Core.run Sys2Proof.core (2 + h.length) s = .next { s with
        inputs := rest, trace := s.trace ++ [.accept c.cmdWord, .resp 1#3 0#15] })

/-- R192, R116: what the block does after reset on its own, for both values of `WIRE3_RESET`. Its count of steps is of
clocks (log entry 1). -/
def Obligations.InitialisationSequence : Prop :=
  ∀ (p : Config.Params) (a₁ a₂ a₃ : Lines) (w₁ w₂ w₃ rest : List Lines) (c0 : Byte),
    BusAnswer w₁ a₁ → BusAnswer w₂ a₂ → BusAnswer w₃ a₃ → c0 = (if p.wire3Reset then 0x11#8 else 0x01#8) →
    ∃ t, Host.Core.run Sys2Proof.core (3 + w₁.length + w₂.length + w₃.length)
        (State.resetWith p (transact w₁ a₁ ++ transact w₂ a₂ ++ transact w₃ a₃ ++ rest)) = .next t ∧
      t.fsm = .idle ∧ t.op = .init ∧ t.cfg = c0 ∧ t.lastw = c0 ∧ t.lastwValid = true ∧ t.flt = false ∧
      t.calRref = 0x4079000000000000#64 ∧ t.calR0 = 0x4059000000000000#64 ∧ t.resp = 0#18 ∧ t.inputs = rest ∧
      t.trace = [.write c0, .write (c0 ||| 0x02#8), .write c0]

/-! ### Arithmetic -/

/-- R83, R20: a quarter of a reference: exact for a normal number from 2^-1020 up, an infinity for an infinity, a NaN
for a NaN. Which NaN is a free value, and the statement holds for every one (log entry 5). -/
def Obligations.QuarterOfTheReference : Prop :=
  (∀ x : Bits64, 3 ≤ (x.extractLsb' 52 11).toNat → (x.extractLsb' 52 11).toNat < 2047 →
    fdiv64 x 0x4010000000000000#64 = x - 0x0020000000000000#64) ∧
  (∀ x : Bits64, x.extractLsb' 52 11 = 2047#11 → x.extractLsb' 0 52 = 0#52 → fdiv64 x 0x4010000000000000#64 = x) ∧
  (∀ x : Bits64, x.extractLsb' 52 11 = 2047#11 → x.extractLsb' 0 52 ≠ 0#52 →
    (fdiv64 x 0x4010000000000000#64).extractLsb' 52 11 = 2047#11 ∧
    (fdiv64 x 0x4010000000000000#64).extractLsb' 0 52 ≠ 0#52)

/-- R94 (c), R133: the raw code is the raw value shifted right by one, its half where the fault bit is clear. -/
def Obligations.RawCodeIsTheHalf : Prop :=
  ∀ d : Half, (rawCode d).toNat = (d >>> 1).toNat ∧ (d.getLsbD 0 = false → 2 * (rawCode d).toNat = d.toNat)

/-- R141: the closed form is exact for every 15-bit code: `rawCode / 32 - 256`, in thirty-seconds. -/
def Obligations.SimpleTemperatureIsExact : Prop :=
  ∀ code : RawCode, ∃ (neg : Bool) (sig shift : Nat),
    Solver.simpleTemperature code = .fin neg sig (-(shift : Int)) ∧ (neg = decide (code.toNat < 8192)) ∧
    (sig : Int) * 32 = ((code.toNat : Int) - 8192).natAbs * 2 ^ shift

/-- R144, R148 (c): an iteration that oscillates between two values ends in its second pass, at the closer of the two. -/
def Obligations.OscillationEndsAtTheCloser : Prop :=
  ∀ (f f' : F64 → F64) (goal a b : F64),
    ((f a).sub goal).eq (.fin false 0 (-1074)) = false → ((f b).sub goal).eq (.fin false 0 (-1074)) = false →
    a.sub (((f a).sub goal).div (f' a)) = b → b.sub (((f b).sub goal).div (f' b)) = a →
    a.eq b = false → b.eq a = false → a.eq a = true →
    Solver.newton f f' goal a =
      .converged (if ((f a).sub goal).abs.lt ((f b).sub goal).abs then a else b)

/-- R144, R146: whatever the solver returns, one of the three ways to end holds of it; there is no other. -/
def Obligations.SolverResultIsJustified : Prop :=
  ∀ (f f' : F64 → F64) (goal x0 r : F64), Solver.newton f f' goal x0 = .converged r →
    ((f r).sub goal).eq (.fin false 0 (-1074)) = true ∨
    (r.sub (((f r).sub goal).div (f' r))).eq r = true ∨
    ∃ prev x, x = prev.sub (((f prev).sub goal).div (f' prev)) ∧
      (x.sub (((f x).sub goal).div (f' x))).eq prev = true ∧
      r = Solver.closer f goal x (x.sub (((f x).sub goal).div (f' x)))
end

