-- ==== Sys2Proof/Laws/Binary64.lean ====
section
/-! SUPPORT. Rounding is exact where the value is representable, and the patterns of data. -/

namespace Sys2Proof.Machine.F64

theorem roundNat_mul (q : Nat) {den : Nat} (h : 0 < den) : roundNat (q * den) den = q := by
  simp [roundNat, Nat.mul_div_cancel _ h]
  omega

theorem binExp_pow {v : Nat} (hv : 0 < v) (j : Nat) : binExp v (2 ^ j) = (Nat.log2 v : Int) - j := by
  have h1 : 2 ^ Nat.log2 v ≤ v := Nat.log2_self_le (by omega)
  simp only [binExp, Nat.log2_two_pow]
  rw [if_pos]
  rcases Nat.le_total j (Nat.log2 v) with h | h
  · rw [show ((Nat.log2 v : Int) - j).toNat = Nat.log2 v - j by omega,
      show (-((Nat.log2 v : Int) - j)).toNat = 0 by omega, ← Nat.pow_add, Nat.add_sub_cancel' h]
    omega
  · rw [show ((Nat.log2 v : Int) - j).toNat = 0 by omega,
      show (-((Nat.log2 v : Int) - j)).toNat = j - Nat.log2 v by omega]
    calc 2 ^ j * 2 ^ 0 = 2 ^ Nat.log2 v * 2 ^ (j - Nat.log2 v) := by
          rw [Nat.pow_zero, Nat.mul_one, ← Nat.pow_add, Nat.add_sub_cancel' h]
      _ ≤ v * 2 ^ (j - Nat.log2 v) := Nat.mul_le_mul_right _ h1

/-- The exponent of the canonical form of `v * 2^k`. -/
def canonExp (v : Nat) (k : Int) : Int := max ((Nat.log2 v : Int) + k - 52) (-1074)

/-- `v * 2^p / 2^j * 2^k` with `v` of at most 53 bits is representable, unless it is too small or too large; rounding
it changes nothing. -/
theorem round_pow {v p j : Nat} {k : Int} (neg : Bool) (hv : 0 < v) (hlt : v < 2 ^ 53) (hk : -1074 ≤ k + p - j)
    (hbig : canonExp v (k + p - j) ≤ 971) :
    round neg (v * 2 ^ p) (2 ^ j) k =
      .fin neg (v * 2 ^ (k + p - j - canonExp v (k + p - j)).toNat) (canonExp v (k + p - j)) := by
  have hlog : Nat.log2 v ≤ 52 := by
    have := (Nat.log2_lt (by omega)).2 hlt
    omega
  have hpos : 0 < v * 2 ^ p := Nat.mul_pos hv (Nat.two_pow_pos _)
  have hlogp : Nat.log2 (v * 2 ^ p) = Nat.log2 v + p := by
    refine (Nat.log2_eq_iff (by omega)).2 ⟨?_, ?_⟩
    · rw [Nat.pow_add]
      exact Nat.mul_le_mul_right _ (Nat.log2_self_le (by omega))
    · rw [show Nat.log2 v + p + 1 = Nat.log2 v + 1 + p by omega, Nat.pow_add]
      exact Nat.mul_lt_mul_of_pos_right Nat.lt_log2_self (Nat.two_pow_pos _)
  have he : max (binExp (v * 2 ^ p) (2 ^ j) + k - 52) (-1074) = canonExp v (k + p - j) := by
    rw [binExp_pow hpos, hlogp, canonExp]
    congr 1
    omega
  generalize hc : canonExp v (k + p - j) = e at *
  have hle : e ≤ k + p - j := by
    rw [← hc, canonExp]
    omega
  have hpow : v * 2 ^ p * 2 ^ (k - e).toNat = v * 2 ^ (k + p - j - e).toNat * (2 ^ j * 2 ^ (e - k).toNat) := by
    rw [Nat.mul_assoc, Nat.mul_assoc, ← Nat.pow_add, ← Nat.pow_add, ← Nat.pow_add]
    congr 2
    omega
  have hq : v * 2 ^ (k + p - j - e).toNat < 2 ^ 53 := by
    have hup : v < 2 ^ (Nat.log2 v + 1) := Nat.lt_log2_self
    have hexp : Nat.log2 v + 1 + (k + p - j - e).toNat ≤ 53 := by
      rw [← hc, canonExp]
      omega
    calc v * 2 ^ (k + p - j - e).toNat
        < 2 ^ (Nat.log2 v + 1) * 2 ^ (k + p - j - e).toNat := Nat.mul_lt_mul_of_pos_right hup (Nat.two_pow_pos _)
      _ = 2 ^ (Nat.log2 v + 1 + (k + p - j - e).toNat) := (Nat.pow_add _ _ _).symm
      _ ≤ 2 ^ 53 := Nat.pow_le_pow_right (by omega) hexp
  have hr : roundNat (v * 2 ^ p * 2 ^ (k - e).toNat) (2 ^ j * 2 ^ (e - k).toNat) = v * 2 ^ (k + p - j - e).toNat := by
    rw [hpow]
    exact roundNat_mul _ (Nat.mul_pos (Nat.two_pow_pos _) (Nat.two_pow_pos _))
  simp only [round, he, hr]
  rw [if_neg (by omega), if_neg (by omega), if_neg (by omega), if_neg (by omega)]

/-- A 53-bit significand stays as it is. -/
theorem round_normal {v j : Nat} {k : Int} (neg : Bool) (hl : 2 ^ 52 ≤ v) (hlt : v < 2 ^ 53) (hk : -1074 ≤ k - j)
    (hbig : k - j ≤ 971) : round neg v (2 ^ j) k = .fin neg v (k - j) := by
  have hlog : Nat.log2 v = 52 := (Nat.log2_eq_iff (by omega)).2 ⟨hl, hlt⟩
  have hc : canonExp v (k - j) = k - j := by
    rw [canonExp, hlog]
    omega
  have h := round_pow (p := 0) neg (by omega) hlt (by simpa using hk) (by simpa [hc] using hbig)
  simpa [hc] using h

/-! ### Patterns -/

/-- A pattern from its fields: sign 63, exponent 62:52, fraction 51:0. -/
theorem toNat_eq_fields (x : Bits64) :
    x.toNat = (if x.getLsbD 63 then 2 ^ 63 else 0) + (x.extractLsb' 52 11).toNat * 2 ^ 52
      + (x.extractLsb' 0 52).toNat := by
  have h1 : x.getLsbD 63 = decide (x.toNat / 2 ^ 63 % 2 = 1) := by
    rw [BitVec.getLsbD, Nat.testBit_eq_decide_div_mod_eq]
  have h2 : (x.extractLsb' 52 11).toNat = x.toNat / 2 ^ 52 % 2 ^ 11 := by
    simp [BitVec.extractLsb'_toNat, Nat.shiftRight_eq_div_pow]
  have h3 : (x.extractLsb' 0 52).toNat = x.toNat % 2 ^ 52 := by simp [BitVec.extractLsb'_toNat]
  rw [h1, h2, h3]
  have := x.isLt
  by_cases h : x.toNat / 2 ^ 63 % 2 = 1 <;> simp only [h, decide_true, decide_false, if_true] <;> simp <;>
    omega

theorem toNat_packFields (neg : Bool) {e f : Nat} (he : e < 2 ^ 11) (hf : f < 2 ^ 52) :
    (packFields neg e f).toNat = ((if neg then 2 ^ 11 else 0) + e) * 2 ^ 52 + f := by
  rw [packFields, BitVec.toNat_ofNat, Nat.mod_eq_of_lt]
  · cases neg
    · simp
    · simp; omega
  · cases neg <;> simp <;> omega

/-- The exponent field of a packed pattern. -/
theorem exponent_packFields (neg : Bool) {e f : Nat} (he : e < 2 ^ 11) (hf : f < 2 ^ 52) :
    ((packFields neg e f).extractLsb' 52 11).toNat = e := by
  rw [BitVec.extractLsb'_toNat, toNat_packFields neg he hf, Nat.shiftRight_eq_div_pow, Nat.mul_comm,
    Nat.mul_add_div (Nat.two_pow_pos _), Nat.div_eq_of_lt hf, Nat.add_zero]
  cases neg
  · simpa using he
  · simpa using he

/-- The fraction field of a packed pattern. -/
theorem fraction_packFields (neg : Bool) {e f : Nat} (he : e < 2 ^ 11) (hf : f < 2 ^ 52) :
    ((packFields neg e f).extractLsb' 0 52).toNat = f := by
  rw [BitVec.extractLsb'_toNat, toNat_packFields neg he hf, Nat.shiftRight_eq_div_pow, Nat.pow_zero, Nat.div_one,
    Nat.mul_comm, Nat.mul_add_mod, Nat.mod_eq_of_lt hf]

theorem ofBits_normal {b : Bits64} (h0 : (b.extractLsb' 52 11).toNat ≠ 0) (h1 : (b.extractLsb' 52 11).toNat ≠ 2047) :
    ofBits b = .fin (b.getLsbD 63) (2 ^ 52 + (b.extractLsb' 0 52).toNat) ((b.extractLsb' 52 11).toNat - 1075) := by
  rw [ofBits, if_neg h1, if_neg h0]

theorem ofBits_special {b : Bits64} (h : (b.extractLsb' 52 11).toNat = 2047) :
    ofBits b = if (b.extractLsb' 0 52).toNat = 0 then .inf (b.getLsbD 63) else .nan := by
  rw [ofBits, if_pos h]

theorem div_finite (s t : Bool) (m : Nat) {n : Nat} (e f : Int) (h : n ≠ 0) :
    (F64.fin s m e).div (.fin t n f) = round (s ^^ t) m n (e - f) := by simp [div, h]

end Sys2Proof.Machine.F64
end

