-- ==== Sys2Proof/Laws/Decode.lean ====
section
/-! SUPPORT. Bits of command words: what a decoded field says of the word's bits, the encoded CONFIGURE as its fields side
by side, and match and mask as the decoder's tests. -/

namespace Sys2Proof

@[simp] theorem getLsbD_bitWord (b : Bool) (i : Nat) : (bitWord b).getLsbD i = (decide (i = 0) && b) := by
  cases b
  · simp [bitWord]
  · simp only [bitWord, cond_true, BitVec.getLsbD_ofNat]
    rcases i with _ | i <;> simp [Nat.testBit_succ]

/-- A field read from a word says what the word's bits there are. -/
theorem getLsbD_of_field {w : Word} {n k : Nat} {v : BitVec k} (h : w.extractLsb' n k = v) {i : Nat} (h1 : n ≤ i)
    (h2 : i < n + k) : w.getLsbD i = v.getLsbD (i - n) := by
  rw [← h, BitVec.getLsbD_extractLsb']
  simp [show i - n < k by omega, show n + (i - n) = i by omega]

/-- A word's field is `v` when its bits are. -/
theorem field_eq_iff (w : Word) (n k : Nat) (v : BitVec k) :
    w.extractLsb' n k = v ↔ ∀ i < k, w.getLsbD (n + i) = v.getLsbD i := by
  constructor
  · rintro rfl i hi
    simp [hi]
  · intro h
    apply BitVec.eq_of_getLsbD_eq
    intro i hi
    simp [hi, h i hi]

/-- Match and mask, bit by bit. -/
theorem and_eq_iff (w m v : Word) : w &&& m = v ↔ ∀ i < 32, (w.getLsbD i && m.getLsbD i) = v.getLsbD i := by
  constructor
  · rintro rfl i _
    simp
  · intro h
    apply BitVec.eq_of_getLsbD_eq
    intro i hi
    rw [BitVec.getLsbD_and]
    exact h i hi

/-- The encoded CONFIGURE, for operands that fit their fields: opcode, `RV`, `ZV`, zeros, `FILT`, `WIRES` (R61). -/
theorem encode_configure (rv zv : Bool) (f w : BitVec 8) :
    encode (.configure rv zv f.toNat w.toNat) =
      1#4 ++ BitVec.ofBool rv ++ BitVec.ofBool zv ++ 0#10 ++ f ++ w := by
  have hf : BitVec.ofNat 32 f.toNat = f.setWidth 32 := by simp
  have hw : BitVec.ofNat 32 w.toNat = w.setWidth 32 := by simp
  simp only [encode, hf, hw]
  apply BitVec.eq_of_getLsbD_eq
  intro i hi
  simp only [BitVec.getLsbD_or, BitVec.getLsbD_shiftLeft, getLsbD_bitWord, BitVec.getLsbD_setWidth,
    BitVec.getLsbD_append]
  rcases (show i < 8 ∨ (8 ≤ i ∧ i < 16) ∨ (16 ≤ i ∧ i < 32) by omega) with h | h | h
  · have h2 : (268435456#32).getLsbD i = false := by interval_cases i <;> rfl
    rw [h2]
    simp [h, show i < 27 by omega, show i < 26 by omega, show i < 32 by omega]
  · obtain ⟨h8, h16⟩ := h
    have h2 : (268435456#32).getLsbD i = false := by interval_cases i <;> rfl
    have hw : w.getLsbD i = false := BitVec.getLsbD_of_ge _ _ (by omega)
    rw [h2]
    simp [hw, show ¬ i < 8 by omega, show i < 27 by omega, show i < 26 by omega, show i - 8 < 8 by omega,
      show i < 32 by omega, show i - 8 < 32 by omega]
  · obtain ⟨h16, h32⟩ := h
    have hf : f.getLsbD (i - 8) = false := BitVec.getLsbD_of_ge _ _ (by omega)
    have hw : w.getLsbD i = false := BitVec.getLsbD_of_ge _ _ (by omega)
    simp only [hf, hw]
    interval_cases i <;> simp

end Sys2Proof
end

