-- ==== Sys2Proof/Laws/State.lean ====
section
/-! SUPPORT. What each named update of the state does to each field, true by definition. `flush`, `raise` and `reject`
are compositions of these and have their lemmas in Ops.lean. -/

namespace Sys2Proof.Machine

/-! ### `emit` -/

@[simp] theorem State.emit_cfg (s : State) (e : TraceEvent) : (s.emit e).cfg = s.cfg := rfl
@[simp] theorem State.emit_calRref (s : State) (e : TraceEvent) : (s.emit e).calRref = s.calRref := rfl
@[simp] theorem State.emit_calR0 (s : State) (e : TraceEvent) : (s.emit e).calR0 = s.calR0 := rfl
@[simp] theorem State.emit_flt (s : State) (e : TraceEvent) : (s.emit e).flt = s.flt := rfl
@[simp] theorem State.emit_fsm (s : State) (e : TraceEvent) : (s.emit e).fsm = s.fsm := rfl
@[simp] theorem State.emit_op (s : State) (e : TraceEvent) : (s.emit e).op = s.op := rfl
@[simp] theorem State.emit_bwt (s : State) (e : TraceEvent) : (s.emit e).bwt = s.bwt := rfl
@[simp] theorem State.emit_ctc (s : State) (e : TraceEvent) : (s.emit e).ctc = s.ctc := rfl
@[simp] theorem State.emit_raw16 (s : State) (e : TraceEvent) : (s.emit e).raw16 = s.raw16 := rfl
@[simp] theorem State.emit_resp (s : State) (e : TraceEvent) : (s.emit e).resp = s.resp := rfl
@[simp] theorem State.emit_psc (s : State) (e : TraceEvent) : (s.emit e).psc = s.psc := rfl
@[simp] theorem State.emit_lastw (s : State) (e : TraceEvent) : (s.emit e).lastw = s.lastw := rfl
@[simp] theorem State.emit_lastwValid (s : State) (e : TraceEvent) : (s.emit e).lastwValid = s.lastwValid := rfl
@[simp] theorem State.emit_params (s : State) (e : TraceEvent) : (s.emit e).params = s.params := rfl
@[simp] theorem State.emit_inputs (s : State) (e : TraceEvent) : (s.emit e).inputs = s.inputs := rfl
@[simp] theorem State.emit_trace (s : State) (e : TraceEvent) : (s.emit e).trace = s.trace ++ [e] := rfl

/-! ### `goto` -/

@[simp] theorem State.goto_cfg (s : State) (f : Fsm) : (s.goto f).cfg = s.cfg := rfl
@[simp] theorem State.goto_calRref (s : State) (f : Fsm) : (s.goto f).calRref = s.calRref := rfl
@[simp] theorem State.goto_calR0 (s : State) (f : Fsm) : (s.goto f).calR0 = s.calR0 := rfl
@[simp] theorem State.goto_flt (s : State) (f : Fsm) : (s.goto f).flt = s.flt := rfl
@[simp] theorem State.goto_fsm (s : State) (f : Fsm) : (s.goto f).fsm = f := rfl
@[simp] theorem State.goto_op (s : State) (f : Fsm) : (s.goto f).op = s.op := rfl
@[simp] theorem State.goto_bwt (s : State) (f : Fsm) : (s.goto f).bwt = s.bwt := rfl
@[simp] theorem State.goto_ctc (s : State) (f : Fsm) : (s.goto f).ctc = s.ctc := rfl
@[simp] theorem State.goto_raw16 (s : State) (f : Fsm) : (s.goto f).raw16 = s.raw16 := rfl
@[simp] theorem State.goto_resp (s : State) (f : Fsm) : (s.goto f).resp = s.resp := rfl
@[simp] theorem State.goto_psc (s : State) (f : Fsm) : (s.goto f).psc = s.psc := rfl
@[simp] theorem State.goto_lastw (s : State) (f : Fsm) : (s.goto f).lastw = s.lastw := rfl
@[simp] theorem State.goto_lastwValid (s : State) (f : Fsm) : (s.goto f).lastwValid = s.lastwValid := rfl
@[simp] theorem State.goto_params (s : State) (f : Fsm) : (s.goto f).params = s.params := rfl
@[simp] theorem State.goto_inputs (s : State) (f : Fsm) : (s.goto f).inputs = s.inputs := rfl
@[simp] theorem State.goto_trace (s : State) (f : Fsm) : (s.goto f).trace = s.trace := rfl

/-! ### `setOp` -/

@[simp] theorem State.setOp_cfg (s : State) (o : Op) : (s.setOp o).cfg = s.cfg := rfl
@[simp] theorem State.setOp_calRref (s : State) (o : Op) : (s.setOp o).calRref = s.calRref := rfl
@[simp] theorem State.setOp_calR0 (s : State) (o : Op) : (s.setOp o).calR0 = s.calR0 := rfl
@[simp] theorem State.setOp_flt (s : State) (o : Op) : (s.setOp o).flt = s.flt := rfl
@[simp] theorem State.setOp_fsm (s : State) (o : Op) : (s.setOp o).fsm = s.fsm := rfl
@[simp] theorem State.setOp_op (s : State) (o : Op) : (s.setOp o).op = o := rfl
@[simp] theorem State.setOp_bwt (s : State) (o : Op) : (s.setOp o).bwt = s.bwt := rfl
@[simp] theorem State.setOp_ctc (s : State) (o : Op) : (s.setOp o).ctc = s.ctc := rfl
@[simp] theorem State.setOp_raw16 (s : State) (o : Op) : (s.setOp o).raw16 = s.raw16 := rfl
@[simp] theorem State.setOp_resp (s : State) (o : Op) : (s.setOp o).resp = s.resp := rfl
@[simp] theorem State.setOp_psc (s : State) (o : Op) : (s.setOp o).psc = s.psc := rfl
@[simp] theorem State.setOp_lastw (s : State) (o : Op) : (s.setOp o).lastw = s.lastw := rfl
@[simp] theorem State.setOp_lastwValid (s : State) (o : Op) : (s.setOp o).lastwValid = s.lastwValid := rfl
@[simp] theorem State.setOp_params (s : State) (o : Op) : (s.setOp o).params = s.params := rfl
@[simp] theorem State.setOp_inputs (s : State) (o : Op) : (s.setOp o).inputs = s.inputs := rfl
@[simp] theorem State.setOp_trace (s : State) (o : Op) : (s.setOp o).trace = s.trace := rfl

/-! ### `setBias` -/

@[simp] theorem State.setBias_cfg (s : State) (v : Bool) : (s.setBias v).cfg = putBit Config.bitBias v s.cfg := rfl
@[simp] theorem State.setBias_calRref (s : State) (v : Bool) : (s.setBias v).calRref = s.calRref := rfl
@[simp] theorem State.setBias_calR0 (s : State) (v : Bool) : (s.setBias v).calR0 = s.calR0 := rfl
@[simp] theorem State.setBias_flt (s : State) (v : Bool) : (s.setBias v).flt = s.flt := rfl
@[simp] theorem State.setBias_fsm (s : State) (v : Bool) : (s.setBias v).fsm = s.fsm := rfl
@[simp] theorem State.setBias_op (s : State) (v : Bool) : (s.setBias v).op = s.op := rfl
@[simp] theorem State.setBias_bwt (s : State) (v : Bool) : (s.setBias v).bwt = s.bwt := rfl
@[simp] theorem State.setBias_ctc (s : State) (v : Bool) : (s.setBias v).ctc = s.ctc := rfl
@[simp] theorem State.setBias_raw16 (s : State) (v : Bool) : (s.setBias v).raw16 = s.raw16 := rfl
@[simp] theorem State.setBias_resp (s : State) (v : Bool) : (s.setBias v).resp = s.resp := rfl
@[simp] theorem State.setBias_psc (s : State) (v : Bool) : (s.setBias v).psc = s.psc := rfl
@[simp] theorem State.setBias_lastw (s : State) (v : Bool) : (s.setBias v).lastw = s.lastw := rfl
@[simp] theorem State.setBias_lastwValid (s : State) (v : Bool) : (s.setBias v).lastwValid = s.lastwValid := rfl
@[simp] theorem State.setBias_params (s : State) (v : Bool) : (s.setBias v).params = s.params := rfl
@[simp] theorem State.setBias_inputs (s : State) (v : Bool) : (s.setBias v).inputs = s.inputs := rfl
@[simp] theorem State.setBias_trace (s : State) (v : Bool) : (s.setBias v).trace = s.trace := rfl

/-! ### `setOneshot` -/

@[simp] theorem State.setOneshot_cfg (s : State) (v : Bool) : (s.setOneshot v).cfg = putBit Config.bitOneshot v s.cfg := rfl
@[simp] theorem State.setOneshot_calRref (s : State) (v : Bool) : (s.setOneshot v).calRref = s.calRref := rfl
@[simp] theorem State.setOneshot_calR0 (s : State) (v : Bool) : (s.setOneshot v).calR0 = s.calR0 := rfl
@[simp] theorem State.setOneshot_flt (s : State) (v : Bool) : (s.setOneshot v).flt = s.flt := rfl
@[simp] theorem State.setOneshot_fsm (s : State) (v : Bool) : (s.setOneshot v).fsm = s.fsm := rfl
@[simp] theorem State.setOneshot_op (s : State) (v : Bool) : (s.setOneshot v).op = s.op := rfl
@[simp] theorem State.setOneshot_bwt (s : State) (v : Bool) : (s.setOneshot v).bwt = s.bwt := rfl
@[simp] theorem State.setOneshot_ctc (s : State) (v : Bool) : (s.setOneshot v).ctc = s.ctc := rfl
@[simp] theorem State.setOneshot_raw16 (s : State) (v : Bool) : (s.setOneshot v).raw16 = s.raw16 := rfl
@[simp] theorem State.setOneshot_resp (s : State) (v : Bool) : (s.setOneshot v).resp = s.resp := rfl
@[simp] theorem State.setOneshot_psc (s : State) (v : Bool) : (s.setOneshot v).psc = s.psc := rfl
@[simp] theorem State.setOneshot_lastw (s : State) (v : Bool) : (s.setOneshot v).lastw = s.lastw := rfl
@[simp] theorem State.setOneshot_lastwValid (s : State) (v : Bool) : (s.setOneshot v).lastwValid = s.lastwValid := rfl
@[simp] theorem State.setOneshot_params (s : State) (v : Bool) : (s.setOneshot v).params = s.params := rfl
@[simp] theorem State.setOneshot_inputs (s : State) (v : Bool) : (s.setOneshot v).inputs = s.inputs := rfl
@[simp] theorem State.setOneshot_trace (s : State) (v : Bool) : (s.setOneshot v).trace = s.trace := rfl

/-! ### `setWire3` -/

@[simp] theorem State.setWire3_cfg (s : State) (v : Bool) : (s.setWire3 v).cfg = putBit Config.bitWire3 v s.cfg := rfl
@[simp] theorem State.setWire3_calRref (s : State) (v : Bool) : (s.setWire3 v).calRref = s.calRref := rfl
@[simp] theorem State.setWire3_calR0 (s : State) (v : Bool) : (s.setWire3 v).calR0 = s.calR0 := rfl
@[simp] theorem State.setWire3_flt (s : State) (v : Bool) : (s.setWire3 v).flt = s.flt := rfl
@[simp] theorem State.setWire3_fsm (s : State) (v : Bool) : (s.setWire3 v).fsm = s.fsm := rfl
@[simp] theorem State.setWire3_op (s : State) (v : Bool) : (s.setWire3 v).op = s.op := rfl
@[simp] theorem State.setWire3_bwt (s : State) (v : Bool) : (s.setWire3 v).bwt = s.bwt := rfl
@[simp] theorem State.setWire3_ctc (s : State) (v : Bool) : (s.setWire3 v).ctc = s.ctc := rfl
@[simp] theorem State.setWire3_raw16 (s : State) (v : Bool) : (s.setWire3 v).raw16 = s.raw16 := rfl
@[simp] theorem State.setWire3_resp (s : State) (v : Bool) : (s.setWire3 v).resp = s.resp := rfl
@[simp] theorem State.setWire3_psc (s : State) (v : Bool) : (s.setWire3 v).psc = s.psc := rfl
@[simp] theorem State.setWire3_lastw (s : State) (v : Bool) : (s.setWire3 v).lastw = s.lastw := rfl
@[simp] theorem State.setWire3_lastwValid (s : State) (v : Bool) : (s.setWire3 v).lastwValid = s.lastwValid := rfl
@[simp] theorem State.setWire3_params (s : State) (v : Bool) : (s.setWire3 v).params = s.params := rfl
@[simp] theorem State.setWire3_inputs (s : State) (v : Bool) : (s.setWire3 v).inputs = s.inputs := rfl
@[simp] theorem State.setWire3_trace (s : State) (v : Bool) : (s.setWire3 v).trace = s.trace := rfl

/-! ### `setFclr` -/

@[simp] theorem State.setFclr_cfg (s : State) (v : Bool) : (s.setFclr v).cfg = putBit Config.bitFclr v s.cfg := rfl
@[simp] theorem State.setFclr_calRref (s : State) (v : Bool) : (s.setFclr v).calRref = s.calRref := rfl
@[simp] theorem State.setFclr_calR0 (s : State) (v : Bool) : (s.setFclr v).calR0 = s.calR0 := rfl
@[simp] theorem State.setFclr_flt (s : State) (v : Bool) : (s.setFclr v).flt = s.flt := rfl
@[simp] theorem State.setFclr_fsm (s : State) (v : Bool) : (s.setFclr v).fsm = s.fsm := rfl
@[simp] theorem State.setFclr_op (s : State) (v : Bool) : (s.setFclr v).op = s.op := rfl
@[simp] theorem State.setFclr_bwt (s : State) (v : Bool) : (s.setFclr v).bwt = s.bwt := rfl
@[simp] theorem State.setFclr_ctc (s : State) (v : Bool) : (s.setFclr v).ctc = s.ctc := rfl
@[simp] theorem State.setFclr_raw16 (s : State) (v : Bool) : (s.setFclr v).raw16 = s.raw16 := rfl
@[simp] theorem State.setFclr_resp (s : State) (v : Bool) : (s.setFclr v).resp = s.resp := rfl
@[simp] theorem State.setFclr_psc (s : State) (v : Bool) : (s.setFclr v).psc = s.psc := rfl
@[simp] theorem State.setFclr_lastw (s : State) (v : Bool) : (s.setFclr v).lastw = s.lastw := rfl
@[simp] theorem State.setFclr_lastwValid (s : State) (v : Bool) : (s.setFclr v).lastwValid = s.lastwValid := rfl
@[simp] theorem State.setFclr_params (s : State) (v : Bool) : (s.setFclr v).params = s.params := rfl
@[simp] theorem State.setFclr_inputs (s : State) (v : Bool) : (s.setFclr v).inputs = s.inputs := rfl
@[simp] theorem State.setFclr_trace (s : State) (v : Bool) : (s.setFclr v).trace = s.trace := rfl

/-! ### `setF50` -/

@[simp] theorem State.setF50_cfg (s : State) (v : Bool) : (s.setF50 v).cfg = putBit Config.bitF50 v s.cfg := rfl
@[simp] theorem State.setF50_calRref (s : State) (v : Bool) : (s.setF50 v).calRref = s.calRref := rfl
@[simp] theorem State.setF50_calR0 (s : State) (v : Bool) : (s.setF50 v).calR0 = s.calR0 := rfl
@[simp] theorem State.setF50_flt (s : State) (v : Bool) : (s.setF50 v).flt = s.flt := rfl
@[simp] theorem State.setF50_fsm (s : State) (v : Bool) : (s.setF50 v).fsm = s.fsm := rfl
@[simp] theorem State.setF50_op (s : State) (v : Bool) : (s.setF50 v).op = s.op := rfl
@[simp] theorem State.setF50_bwt (s : State) (v : Bool) : (s.setF50 v).bwt = s.bwt := rfl
@[simp] theorem State.setF50_ctc (s : State) (v : Bool) : (s.setF50 v).ctc = s.ctc := rfl
@[simp] theorem State.setF50_raw16 (s : State) (v : Bool) : (s.setF50 v).raw16 = s.raw16 := rfl
@[simp] theorem State.setF50_resp (s : State) (v : Bool) : (s.setF50 v).resp = s.resp := rfl
@[simp] theorem State.setF50_psc (s : State) (v : Bool) : (s.setF50 v).psc = s.psc := rfl
@[simp] theorem State.setF50_lastw (s : State) (v : Bool) : (s.setF50 v).lastw = s.lastw := rfl
@[simp] theorem State.setF50_lastwValid (s : State) (v : Bool) : (s.setF50 v).lastwValid = s.lastwValid := rfl
@[simp] theorem State.setF50_params (s : State) (v : Bool) : (s.setF50 v).params = s.params := rfl
@[simp] theorem State.setF50_inputs (s : State) (v : Bool) : (s.setF50 v).inputs = s.inputs := rfl
@[simp] theorem State.setF50_trace (s : State) (v : Bool) : (s.setF50 v).trace = s.trace := rfl

/-! ### `clearFlt` -/

@[simp] theorem State.clearFlt_cfg (s : State) : (s.clearFlt).cfg = s.cfg := rfl
@[simp] theorem State.clearFlt_calRref (s : State) : (s.clearFlt).calRref = s.calRref := rfl
@[simp] theorem State.clearFlt_calR0 (s : State) : (s.clearFlt).calR0 = s.calR0 := rfl
@[simp] theorem State.clearFlt_flt (s : State) : (s.clearFlt).flt = false := rfl
@[simp] theorem State.clearFlt_fsm (s : State) : (s.clearFlt).fsm = s.fsm := rfl
@[simp] theorem State.clearFlt_op (s : State) : (s.clearFlt).op = s.op := rfl
@[simp] theorem State.clearFlt_bwt (s : State) : (s.clearFlt).bwt = s.bwt := rfl
@[simp] theorem State.clearFlt_ctc (s : State) : (s.clearFlt).ctc = s.ctc := rfl
@[simp] theorem State.clearFlt_raw16 (s : State) : (s.clearFlt).raw16 = s.raw16 := rfl
@[simp] theorem State.clearFlt_resp (s : State) : (s.clearFlt).resp = s.resp := rfl
@[simp] theorem State.clearFlt_psc (s : State) : (s.clearFlt).psc = s.psc := rfl
@[simp] theorem State.clearFlt_lastw (s : State) : (s.clearFlt).lastw = s.lastw := rfl
@[simp] theorem State.clearFlt_lastwValid (s : State) : (s.clearFlt).lastwValid = s.lastwValid := rfl
@[simp] theorem State.clearFlt_params (s : State) : (s.clearFlt).params = s.params := rfl
@[simp] theorem State.clearFlt_inputs (s : State) : (s.clearFlt).inputs = s.inputs := rfl
@[simp] theorem State.clearFlt_trace (s : State) : (s.clearFlt).trace = s.trace := rfl

/-! ### `captureFlt` -/

@[simp] theorem State.captureFlt_cfg (s : State) (d : Half) : (s.captureFlt d).cfg = s.cfg := rfl
@[simp] theorem State.captureFlt_calRref (s : State) (d : Half) : (s.captureFlt d).calRref = s.calRref := rfl
@[simp] theorem State.captureFlt_calR0 (s : State) (d : Half) : (s.captureFlt d).calR0 = s.calR0 := rfl
@[simp] theorem State.captureFlt_flt (s : State) (d : Half) : (s.captureFlt d).flt = (s.flt || faultBit d) := rfl
@[simp] theorem State.captureFlt_fsm (s : State) (d : Half) : (s.captureFlt d).fsm = s.fsm := rfl
@[simp] theorem State.captureFlt_op (s : State) (d : Half) : (s.captureFlt d).op = s.op := rfl
@[simp] theorem State.captureFlt_bwt (s : State) (d : Half) : (s.captureFlt d).bwt = s.bwt := rfl
@[simp] theorem State.captureFlt_ctc (s : State) (d : Half) : (s.captureFlt d).ctc = s.ctc := rfl
@[simp] theorem State.captureFlt_raw16 (s : State) (d : Half) : (s.captureFlt d).raw16 = s.raw16 := rfl
@[simp] theorem State.captureFlt_resp (s : State) (d : Half) : (s.captureFlt d).resp = s.resp := rfl
@[simp] theorem State.captureFlt_psc (s : State) (d : Half) : (s.captureFlt d).psc = s.psc := rfl
@[simp] theorem State.captureFlt_lastw (s : State) (d : Half) : (s.captureFlt d).lastw = s.lastw := rfl
@[simp] theorem State.captureFlt_lastwValid (s : State) (d : Half) : (s.captureFlt d).lastwValid = s.lastwValid := rfl
@[simp] theorem State.captureFlt_params (s : State) (d : Half) : (s.captureFlt d).params = s.params := rfl
@[simp] theorem State.captureFlt_inputs (s : State) (d : Half) : (s.captureFlt d).inputs = s.inputs := rfl
@[simp] theorem State.captureFlt_trace (s : State) (d : Half) : (s.captureFlt d).trace = s.trace := rfl

/-! ### `busWrite` -/

@[simp] theorem State.busWrite_cfg (s : State) (v : Byte) : (s.busWrite v).cfg = s.cfg := rfl
@[simp] theorem State.busWrite_calRref (s : State) (v : Byte) : (s.busWrite v).calRref = s.calRref := rfl
@[simp] theorem State.busWrite_calR0 (s : State) (v : Byte) : (s.busWrite v).calR0 = s.calR0 := rfl
@[simp] theorem State.busWrite_flt (s : State) (v : Byte) : (s.busWrite v).flt = s.flt := rfl
@[simp] theorem State.busWrite_fsm (s : State) (v : Byte) : (s.busWrite v).fsm = s.fsm := rfl
@[simp] theorem State.busWrite_op (s : State) (v : Byte) : (s.busWrite v).op = s.op := rfl
@[simp] theorem State.busWrite_bwt (s : State) (v : Byte) : (s.busWrite v).bwt = s.bwt := rfl
@[simp] theorem State.busWrite_ctc (s : State) (v : Byte) : (s.busWrite v).ctc = s.ctc := rfl
@[simp] theorem State.busWrite_raw16 (s : State) (v : Byte) : (s.busWrite v).raw16 = s.raw16 := rfl
@[simp] theorem State.busWrite_resp (s : State) (v : Byte) : (s.busWrite v).resp = s.resp := rfl
@[simp] theorem State.busWrite_psc (s : State) (v : Byte) : (s.busWrite v).psc = s.psc := rfl
@[simp] theorem State.busWrite_lastw (s : State) (v : Byte) : (s.busWrite v).lastw = v := rfl
@[simp] theorem State.busWrite_lastwValid (s : State) (v : Byte) : (s.busWrite v).lastwValid = true := rfl
@[simp] theorem State.busWrite_params (s : State) (v : Byte) : (s.busWrite v).params = s.params := rfl
@[simp] theorem State.busWrite_inputs (s : State) (v : Byte) : (s.busWrite v).inputs = s.inputs := rfl
@[simp] theorem State.busWrite_trace (s : State) (v : Byte) : (s.busWrite v).trace = s.trace ++ [.write v] := rfl

/-! ### `busRead16` -/

@[simp] theorem State.busRead16_cfg (s : State) (d : Half) : (s.busRead16 d).cfg = s.cfg := rfl
@[simp] theorem State.busRead16_calRref (s : State) (d : Half) : (s.busRead16 d).calRref = s.calRref := rfl
@[simp] theorem State.busRead16_calR0 (s : State) (d : Half) : (s.busRead16 d).calR0 = s.calR0 := rfl
@[simp] theorem State.busRead16_flt (s : State) (d : Half) : (s.busRead16 d).flt = s.flt := rfl
@[simp] theorem State.busRead16_fsm (s : State) (d : Half) : (s.busRead16 d).fsm = s.fsm := rfl
@[simp] theorem State.busRead16_op (s : State) (d : Half) : (s.busRead16 d).op = s.op := rfl
@[simp] theorem State.busRead16_bwt (s : State) (d : Half) : (s.busRead16 d).bwt = s.bwt := rfl
@[simp] theorem State.busRead16_ctc (s : State) (d : Half) : (s.busRead16 d).ctc = s.ctc := rfl
@[simp] theorem State.busRead16_raw16 (s : State) (d : Half) : (s.busRead16 d).raw16 = d := rfl
@[simp] theorem State.busRead16_resp (s : State) (d : Half) : (s.busRead16 d).resp = s.resp := rfl
@[simp] theorem State.busRead16_psc (s : State) (d : Half) : (s.busRead16 d).psc = s.psc := rfl
@[simp] theorem State.busRead16_lastw (s : State) (d : Half) : (s.busRead16 d).lastw = s.lastw := rfl
@[simp] theorem State.busRead16_lastwValid (s : State) (d : Half) : (s.busRead16 d).lastwValid = s.lastwValid := rfl
@[simp] theorem State.busRead16_params (s : State) (d : Half) : (s.busRead16 d).params = s.params := rfl
@[simp] theorem State.busRead16_inputs (s : State) (d : Half) : (s.busRead16 d).inputs = s.inputs := rfl
@[simp] theorem State.busRead16_trace (s : State) (d : Half) : (s.busRead16 d).trace = s.trace ++ [.read d] := rfl

/-! ### `respond` -/

@[simp] theorem State.respond_cfg (s : State) (st : Status) (code : RawCode) : (s.respond st code).cfg = s.cfg := rfl
@[simp] theorem State.respond_calRref (s : State) (st : Status) (code : RawCode) : (s.respond st code).calRref = s.calRref := rfl
@[simp] theorem State.respond_calR0 (s : State) (st : Status) (code : RawCode) : (s.respond st code).calR0 = s.calR0 := rfl
@[simp] theorem State.respond_flt (s : State) (st : Status) (code : RawCode) : (s.respond st code).flt = s.flt := rfl
@[simp] theorem State.respond_fsm (s : State) (st : Status) (code : RawCode) : (s.respond st code).fsm = .resp := rfl
@[simp] theorem State.respond_op (s : State) (st : Status) (code : RawCode) : (s.respond st code).op = s.op := rfl
@[simp] theorem State.respond_bwt (s : State) (st : Status) (code : RawCode) : (s.respond st code).bwt = s.bwt := rfl
@[simp] theorem State.respond_ctc (s : State) (st : Status) (code : RawCode) : (s.respond st code).ctc = s.ctc := rfl
@[simp] theorem State.respond_raw16 (s : State) (st : Status) (code : RawCode) : (s.respond st code).raw16 = s.raw16 := rfl
@[simp] theorem State.respond_resp (s : State) (st : Status) (code : RawCode) : (s.respond st code).resp = respWord st code := rfl
@[simp] theorem State.respond_psc (s : State) (st : Status) (code : RawCode) : (s.respond st code).psc = s.psc := rfl
@[simp] theorem State.respond_lastw (s : State) (st : Status) (code : RawCode) : (s.respond st code).lastw = s.lastw := rfl
@[simp] theorem State.respond_lastwValid (s : State) (st : Status) (code : RawCode) : (s.respond st code).lastwValid = s.lastwValid := rfl
@[simp] theorem State.respond_params (s : State) (st : Status) (code : RawCode) : (s.respond st code).params = s.params := rfl
@[simp] theorem State.respond_inputs (s : State) (st : Status) (code : RawCode) : (s.respond st code).inputs = s.inputs := rfl
@[simp] theorem State.respond_trace (s : State) (st : Status) (code : RawCode) : (s.respond st code).trace = s.trace := rfl

/-! ### `takeResponse` -/

@[simp] theorem State.takeResponse_cfg (s : State) : (s.takeResponse).cfg = s.cfg := rfl
@[simp] theorem State.takeResponse_calRref (s : State) : (s.takeResponse).calRref = s.calRref := rfl
@[simp] theorem State.takeResponse_calR0 (s : State) : (s.takeResponse).calR0 = s.calR0 := rfl
@[simp] theorem State.takeResponse_flt (s : State) : (s.takeResponse).flt = s.flt := rfl
@[simp] theorem State.takeResponse_fsm (s : State) : (s.takeResponse).fsm = .idle := rfl
@[simp] theorem State.takeResponse_op (s : State) : (s.takeResponse).op = .init := rfl
@[simp] theorem State.takeResponse_bwt (s : State) : (s.takeResponse).bwt = s.bwt := rfl
@[simp] theorem State.takeResponse_ctc (s : State) : (s.takeResponse).ctc = s.ctc := rfl
@[simp] theorem State.takeResponse_raw16 (s : State) : (s.takeResponse).raw16 = 0#16 := rfl
@[simp] theorem State.takeResponse_resp (s : State) : (s.takeResponse).resp = 0#18 := rfl
@[simp] theorem State.takeResponse_psc (s : State) : (s.takeResponse).psc = s.psc := rfl
@[simp] theorem State.takeResponse_lastw (s : State) : (s.takeResponse).lastw = s.lastw := rfl
@[simp] theorem State.takeResponse_lastwValid (s : State) : (s.takeResponse).lastwValid = s.lastwValid := rfl
@[simp] theorem State.takeResponse_params (s : State) : (s.takeResponse).params = s.params := rfl
@[simp] theorem State.takeResponse_inputs (s : State) : (s.takeResponse).inputs = s.inputs := rfl
@[simp] theorem State.takeResponse_trace (s : State) : (s.takeResponse).trace = s.trace ++ [.resp (respStatus s.resp) (respCode s.resp)] := rfl

/-! ### `loadWarmup` -/

@[simp] theorem State.loadWarmup_cfg (s : State) : (s.loadWarmup).cfg = s.cfg := rfl
@[simp] theorem State.loadWarmup_calRref (s : State) : (s.loadWarmup).calRref = s.calRref := rfl
@[simp] theorem State.loadWarmup_calR0 (s : State) : (s.loadWarmup).calR0 = s.calR0 := rfl
@[simp] theorem State.loadWarmup_flt (s : State) : (s.loadWarmup).flt = s.flt := rfl
@[simp] theorem State.loadWarmup_fsm (s : State) : (s.loadWarmup).fsm = s.fsm := rfl
@[simp] theorem State.loadWarmup_op (s : State) : (s.loadWarmup).op = s.op := rfl
@[simp] theorem State.loadWarmup_bwt (s : State) : (s.loadWarmup).bwt = BitVec.ofNat 4 Config.warmupTicks := rfl
@[simp] theorem State.loadWarmup_ctc (s : State) : (s.loadWarmup).ctc = s.ctc := rfl
@[simp] theorem State.loadWarmup_raw16 (s : State) : (s.loadWarmup).raw16 = s.raw16 := rfl
@[simp] theorem State.loadWarmup_resp (s : State) : (s.loadWarmup).resp = s.resp := rfl
@[simp] theorem State.loadWarmup_psc (s : State) : (s.loadWarmup).psc = 0 := rfl
@[simp] theorem State.loadWarmup_lastw (s : State) : (s.loadWarmup).lastw = s.lastw := rfl
@[simp] theorem State.loadWarmup_lastwValid (s : State) : (s.loadWarmup).lastwValid = s.lastwValid := rfl
@[simp] theorem State.loadWarmup_params (s : State) : (s.loadWarmup).params = s.params := rfl
@[simp] theorem State.loadWarmup_inputs (s : State) : (s.loadWarmup).inputs = s.inputs := rfl
@[simp] theorem State.loadWarmup_trace (s : State) : (s.loadWarmup).trace = s.trace ++ [.delay Config.warmupTicks] := rfl

/-! ### `loadConv` -/

@[simp] theorem State.loadConv_cfg (s : State) : (s.loadConv).cfg = s.cfg := rfl
@[simp] theorem State.loadConv_calRref (s : State) : (s.loadConv).calRref = s.calRref := rfl
@[simp] theorem State.loadConv_calR0 (s : State) : (s.loadConv).calR0 = s.calR0 := rfl
@[simp] theorem State.loadConv_flt (s : State) : (s.loadConv).flt = s.flt := rfl
@[simp] theorem State.loadConv_fsm (s : State) : (s.loadConv).fsm = s.fsm := rfl
@[simp] theorem State.loadConv_op (s : State) : (s.loadConv).op = s.op := rfl
@[simp] theorem State.loadConv_bwt (s : State) : (s.loadConv).bwt = s.bwt := rfl
@[simp] theorem State.loadConv_ctc (s : State) : (s.loadConv).ctc = BitVec.ofNat 6 s.convTicks := rfl
@[simp] theorem State.loadConv_raw16 (s : State) : (s.loadConv).raw16 = s.raw16 := rfl
@[simp] theorem State.loadConv_resp (s : State) : (s.loadConv).resp = s.resp := rfl
@[simp] theorem State.loadConv_psc (s : State) : (s.loadConv).psc = 0 := rfl
@[simp] theorem State.loadConv_lastw (s : State) : (s.loadConv).lastw = s.lastw := rfl
@[simp] theorem State.loadConv_lastwValid (s : State) : (s.loadConv).lastwValid = s.lastwValid := rfl
@[simp] theorem State.loadConv_params (s : State) : (s.loadConv).params = s.params := rfl
@[simp] theorem State.loadConv_inputs (s : State) : (s.loadConv).inputs = s.inputs := rfl
@[simp] theorem State.loadConv_trace (s : State) : (s.loadConv).trace = s.trace ++ [.delay s.convTicks] := rfl

/-! ### `pscCount` -/

@[simp] theorem State.pscCount_cfg (s : State) : (s.pscCount).cfg = s.cfg := rfl
@[simp] theorem State.pscCount_calRref (s : State) : (s.pscCount).calRref = s.calRref := rfl
@[simp] theorem State.pscCount_calR0 (s : State) : (s.pscCount).calR0 = s.calR0 := rfl
@[simp] theorem State.pscCount_flt (s : State) : (s.pscCount).flt = s.flt := rfl
@[simp] theorem State.pscCount_fsm (s : State) : (s.pscCount).fsm = s.fsm := rfl
@[simp] theorem State.pscCount_op (s : State) : (s.pscCount).op = s.op := rfl
@[simp] theorem State.pscCount_bwt (s : State) : (s.pscCount).bwt = s.bwt := rfl
@[simp] theorem State.pscCount_ctc (s : State) : (s.pscCount).ctc = s.ctc := rfl
@[simp] theorem State.pscCount_raw16 (s : State) : (s.pscCount).raw16 = s.raw16 := rfl
@[simp] theorem State.pscCount_resp (s : State) : (s.pscCount).resp = s.resp := rfl
@[simp] theorem State.pscCount_psc (s : State) : (s.pscCount).psc = s.psc + 1 := rfl
@[simp] theorem State.pscCount_lastw (s : State) : (s.pscCount).lastw = s.lastw := rfl
@[simp] theorem State.pscCount_lastwValid (s : State) : (s.pscCount).lastwValid = s.lastwValid := rfl
@[simp] theorem State.pscCount_params (s : State) : (s.pscCount).params = s.params := rfl
@[simp] theorem State.pscCount_inputs (s : State) : (s.pscCount).inputs = s.inputs := rfl
@[simp] theorem State.pscCount_trace (s : State) : (s.pscCount).trace = s.trace := rfl

/-! ### `pscWrap` -/

@[simp] theorem State.pscWrap_cfg (s : State) : (s.pscWrap).cfg = s.cfg := rfl
@[simp] theorem State.pscWrap_calRref (s : State) : (s.pscWrap).calRref = s.calRref := rfl
@[simp] theorem State.pscWrap_calR0 (s : State) : (s.pscWrap).calR0 = s.calR0 := rfl
@[simp] theorem State.pscWrap_flt (s : State) : (s.pscWrap).flt = s.flt := rfl
@[simp] theorem State.pscWrap_fsm (s : State) : (s.pscWrap).fsm = s.fsm := rfl
@[simp] theorem State.pscWrap_op (s : State) : (s.pscWrap).op = s.op := rfl
@[simp] theorem State.pscWrap_bwt (s : State) : (s.pscWrap).bwt = s.bwt := rfl
@[simp] theorem State.pscWrap_ctc (s : State) : (s.pscWrap).ctc = s.ctc := rfl
@[simp] theorem State.pscWrap_raw16 (s : State) : (s.pscWrap).raw16 = s.raw16 := rfl
@[simp] theorem State.pscWrap_resp (s : State) : (s.pscWrap).resp = s.resp := rfl
@[simp] theorem State.pscWrap_psc (s : State) : (s.pscWrap).psc = 0 := rfl
@[simp] theorem State.pscWrap_lastw (s : State) : (s.pscWrap).lastw = s.lastw := rfl
@[simp] theorem State.pscWrap_lastwValid (s : State) : (s.pscWrap).lastwValid = s.lastwValid := rfl
@[simp] theorem State.pscWrap_params (s : State) : (s.pscWrap).params = s.params := rfl
@[simp] theorem State.pscWrap_inputs (s : State) : (s.pscWrap).inputs = s.inputs := rfl
@[simp] theorem State.pscWrap_trace (s : State) : (s.pscWrap).trace = s.trace := rfl

/-! ### `tickBwt` -/

@[simp] theorem State.tickBwt_cfg (s : State) : (s.tickBwt).cfg = s.cfg := rfl
@[simp] theorem State.tickBwt_calRref (s : State) : (s.tickBwt).calRref = s.calRref := rfl
@[simp] theorem State.tickBwt_calR0 (s : State) : (s.tickBwt).calR0 = s.calR0 := rfl
@[simp] theorem State.tickBwt_flt (s : State) : (s.tickBwt).flt = s.flt := rfl
@[simp] theorem State.tickBwt_fsm (s : State) : (s.tickBwt).fsm = s.fsm := rfl
@[simp] theorem State.tickBwt_op (s : State) : (s.tickBwt).op = s.op := rfl
@[simp] theorem State.tickBwt_bwt (s : State) : (s.tickBwt).bwt = s.bwt - 1#4 := rfl
@[simp] theorem State.tickBwt_ctc (s : State) : (s.tickBwt).ctc = s.ctc := rfl
@[simp] theorem State.tickBwt_raw16 (s : State) : (s.tickBwt).raw16 = s.raw16 := rfl
@[simp] theorem State.tickBwt_resp (s : State) : (s.tickBwt).resp = s.resp := rfl
@[simp] theorem State.tickBwt_psc (s : State) : (s.tickBwt).psc = s.psc := rfl
@[simp] theorem State.tickBwt_lastw (s : State) : (s.tickBwt).lastw = s.lastw := rfl
@[simp] theorem State.tickBwt_lastwValid (s : State) : (s.tickBwt).lastwValid = s.lastwValid := rfl
@[simp] theorem State.tickBwt_params (s : State) : (s.tickBwt).params = s.params := rfl
@[simp] theorem State.tickBwt_inputs (s : State) : (s.tickBwt).inputs = s.inputs := rfl
@[simp] theorem State.tickBwt_trace (s : State) : (s.tickBwt).trace = s.trace := rfl

/-! ### `tickCtc` -/

@[simp] theorem State.tickCtc_cfg (s : State) : (s.tickCtc).cfg = s.cfg := rfl
@[simp] theorem State.tickCtc_calRref (s : State) : (s.tickCtc).calRref = s.calRref := rfl
@[simp] theorem State.tickCtc_calR0 (s : State) : (s.tickCtc).calR0 = s.calR0 := rfl
@[simp] theorem State.tickCtc_flt (s : State) : (s.tickCtc).flt = s.flt := rfl
@[simp] theorem State.tickCtc_fsm (s : State) : (s.tickCtc).fsm = s.fsm := rfl
@[simp] theorem State.tickCtc_op (s : State) : (s.tickCtc).op = s.op := rfl
@[simp] theorem State.tickCtc_bwt (s : State) : (s.tickCtc).bwt = s.bwt := rfl
@[simp] theorem State.tickCtc_ctc (s : State) : (s.tickCtc).ctc = s.ctc - 1#6 := rfl
@[simp] theorem State.tickCtc_raw16 (s : State) : (s.tickCtc).raw16 = s.raw16 := rfl
@[simp] theorem State.tickCtc_resp (s : State) : (s.tickCtc).resp = s.resp := rfl
@[simp] theorem State.tickCtc_psc (s : State) : (s.tickCtc).psc = s.psc := rfl
@[simp] theorem State.tickCtc_lastw (s : State) : (s.tickCtc).lastw = s.lastw := rfl
@[simp] theorem State.tickCtc_lastwValid (s : State) : (s.tickCtc).lastwValid = s.lastwValid := rfl
@[simp] theorem State.tickCtc_params (s : State) : (s.tickCtc).params = s.params := rfl
@[simp] theorem State.tickCtc_inputs (s : State) : (s.tickCtc).inputs = s.inputs := rfl
@[simp] theorem State.tickCtc_trace (s : State) : (s.tickCtc).trace = s.trace := rfl

/-! ### `setInputs`, a name for the laws about runs -/

/-- The state with the lines of this clock and of the clocks to come replaced. -/
def State.setInputs (s : State) (ls : List Lines) : State := { s with inputs := ls }

@[simp] theorem State.setInputs_cfg (s : State) (ls : List Lines) : (s.setInputs ls).cfg = s.cfg := rfl
@[simp] theorem State.setInputs_calRref (s : State) (ls : List Lines) : (s.setInputs ls).calRref = s.calRref := rfl
@[simp] theorem State.setInputs_calR0 (s : State) (ls : List Lines) : (s.setInputs ls).calR0 = s.calR0 := rfl
@[simp] theorem State.setInputs_flt (s : State) (ls : List Lines) : (s.setInputs ls).flt = s.flt := rfl
@[simp] theorem State.setInputs_fsm (s : State) (ls : List Lines) : (s.setInputs ls).fsm = s.fsm := rfl
@[simp] theorem State.setInputs_op (s : State) (ls : List Lines) : (s.setInputs ls).op = s.op := rfl
@[simp] theorem State.setInputs_bwt (s : State) (ls : List Lines) : (s.setInputs ls).bwt = s.bwt := rfl
@[simp] theorem State.setInputs_ctc (s : State) (ls : List Lines) : (s.setInputs ls).ctc = s.ctc := rfl
@[simp] theorem State.setInputs_raw16 (s : State) (ls : List Lines) : (s.setInputs ls).raw16 = s.raw16 := rfl
@[simp] theorem State.setInputs_resp (s : State) (ls : List Lines) : (s.setInputs ls).resp = s.resp := rfl
@[simp] theorem State.setInputs_psc (s : State) (ls : List Lines) : (s.setInputs ls).psc = s.psc := rfl
@[simp] theorem State.setInputs_lastw (s : State) (ls : List Lines) : (s.setInputs ls).lastw = s.lastw := rfl
@[simp] theorem State.setInputs_lastwValid (s : State) (ls : List Lines) : (s.setInputs ls).lastwValid = s.lastwValid := rfl
@[simp] theorem State.setInputs_params (s : State) (ls : List Lines) : (s.setInputs ls).params = s.params := rfl
@[simp] theorem State.setInputs_inputs (s : State) (ls : List Lines) : (s.setInputs ls).inputs = ls := rfl
@[simp] theorem State.setInputs_trace (s : State) (ls : List Lines) : (s.setInputs ls).trace = s.trace := rfl

/-! ### `endClock` -/

@[simp] theorem State.endClock_cfg (s : State) : (s.endClock).cfg = s.cfg := rfl
@[simp] theorem State.endClock_calRref (s : State) : (s.endClock).calRref = s.calRref := rfl
@[simp] theorem State.endClock_calR0 (s : State) : (s.endClock).calR0 = s.calR0 := rfl
@[simp] theorem State.endClock_flt (s : State) : (s.endClock).flt = s.flt := rfl
@[simp] theorem State.endClock_fsm (s : State) : (s.endClock).fsm = s.fsm := rfl
@[simp] theorem State.endClock_op (s : State) : (s.endClock).op = s.op := rfl
@[simp] theorem State.endClock_bwt (s : State) : (s.endClock).bwt = s.bwt := rfl
@[simp] theorem State.endClock_ctc (s : State) : (s.endClock).ctc = s.ctc := rfl
@[simp] theorem State.endClock_raw16 (s : State) : (s.endClock).raw16 = s.raw16 := rfl
@[simp] theorem State.endClock_resp (s : State) : (s.endClock).resp = s.resp := rfl
@[simp] theorem State.endClock_psc (s : State) : (s.endClock).psc = s.psc := rfl
@[simp] theorem State.endClock_lastw (s : State) : (s.endClock).lastw = s.lastw := rfl
@[simp] theorem State.endClock_lastwValid (s : State) : (s.endClock).lastwValid = s.lastwValid := rfl
@[simp] theorem State.endClock_params (s : State) : (s.endClock).params = s.params := rfl
@[simp] theorem State.endClock_inputs (s : State) : (s.endClock).inputs = s.inputs.tail := rfl
@[simp] theorem State.endClock_trace (s : State) : (s.endClock).trace = s.trace := rfl

/-! ### `withLines` -/

@[simp] theorem State.withLines_cfg (s : State) (l : Lines) : (s.withLines l).cfg = s.cfg := rfl
@[simp] theorem State.withLines_calRref (s : State) (l : Lines) : (s.withLines l).calRref = s.calRref := rfl
@[simp] theorem State.withLines_calR0 (s : State) (l : Lines) : (s.withLines l).calR0 = s.calR0 := rfl
@[simp] theorem State.withLines_flt (s : State) (l : Lines) : (s.withLines l).flt = s.flt := rfl
@[simp] theorem State.withLines_fsm (s : State) (l : Lines) : (s.withLines l).fsm = s.fsm := rfl
@[simp] theorem State.withLines_op (s : State) (l : Lines) : (s.withLines l).op = s.op := rfl
@[simp] theorem State.withLines_bwt (s : State) (l : Lines) : (s.withLines l).bwt = s.bwt := rfl
@[simp] theorem State.withLines_ctc (s : State) (l : Lines) : (s.withLines l).ctc = s.ctc := rfl
@[simp] theorem State.withLines_raw16 (s : State) (l : Lines) : (s.withLines l).raw16 = s.raw16 := rfl
@[simp] theorem State.withLines_resp (s : State) (l : Lines) : (s.withLines l).resp = s.resp := rfl
@[simp] theorem State.withLines_psc (s : State) (l : Lines) : (s.withLines l).psc = s.psc := rfl
@[simp] theorem State.withLines_lastw (s : State) (l : Lines) : (s.withLines l).lastw = s.lastw := rfl
@[simp] theorem State.withLines_lastwValid (s : State) (l : Lines) : (s.withLines l).lastwValid = s.lastwValid := rfl
@[simp] theorem State.withLines_params (s : State) (l : Lines) : (s.withLines l).params = s.params := rfl
@[simp] theorem State.withLines_inputs (s : State) (l : Lines) : (s.withLines l).inputs = l :: s.inputs.tail := rfl
@[simp] theorem State.withLines_trace (s : State) (l : Lines) : (s.withLines l).trace = s.trace := rfl

end Sys2Proof.Machine
end

