-- ==== Sys2Proof/Laws/Ops.lean ====
section
/-! SUPPORT. What the shared operations do, said once: the bits of the configuration byte, response words, the argument
tests, reset, acceptance, and the outcome of a step changed at its end. -/

namespace Sys2Proof.Machine

/-! ### The configuration byte -/

/-- Setting or clearing a bit leaves every other bit. -/
theorem getLsbD_putBit_of_ne {i j : Nat} (h : i ≠ j) (v : Bool) (c : Byte) :
    (putBit i v c).getLsbD j = c.getLsbD j := by
  have hm : (bitMask i).getLsbD j = false := by
    simp only [bitMask, BitVec.getLsbD_shiftLeft]
    rcases Nat.lt_or_ge j i with hj | hj
    · simp [hj]
    · have hji : j - i ≠ 0 := by omega
      rw [show (0x01#8 : Byte) = BitVec.ofNat 8 1 from rfl, BitVec.getLsbD_ofNat]
      rcases hk : j - i with _ | k
      · exact absurd hk hji
      · simp [Nat.testBit_succ]
  cases v
  · by_cases hj : j < 8
    · simp only [putBit, cond_false, BitVec.getLsbD_and, BitVec.getLsbD_not, hm]
      simp [hj]
    · simp [BitVec.getLsbD_of_ge _ _ (Nat.le_of_not_lt hj)]
  · simp [putBit, hm]

/-- The bit itself takes the value, for a position inside the byte. -/
theorem getLsbD_putBit_self {i : Nat} (h : i < 8) (v : Bool) (c : Byte) : (putBit i v c).getLsbD i = v := by
  have hm : (bitMask i).getLsbD i = true := by simp [bitMask, h]
  cases v <;> simp [putBit, hm, h]

theorem putBit_bias_on (c : Byte) : putBit Config.bitBias true c = c ||| 0x80#8 := rfl
theorem putBit_bias_off (c : Byte) : putBit Config.bitBias false c = c &&& 0x7F#8 := rfl
theorem putBit_oneshot_on (c : Byte) : putBit Config.bitOneshot true c = c ||| 0x20#8 := rfl
theorem putBit_oneshot_off (c : Byte) : putBit Config.bitOneshot false c = c &&& 0xDF#8 := rfl
theorem putBit_fclr_on (c : Byte) : putBit Config.bitFclr true c = c ||| 0x02#8 := rfl
theorem putBit_fclr_off (c : Byte) : putBit Config.bitFclr false c = c &&& 0xFD#8 := rfl

/-- The conversion delay in terms of bit 0 of the shadow (R89). -/
theorem convTicks_eq (s : State) : s.convTicks = if s.cfg.getLsbD 0 then 63 else 53 := by
  show (bif s.cfg.getLsbD 0 == Config.f50Polarity then Config.convTicks50 else Config.convTicks60) = _
  cases s.cfg.getLsbD 0 <;> rfl

theorem warmupTicks_eq : Config.warmupTicks = 10 := rfl

theorem pscWraps_true {s : State} (h : s.params.clkKHz ≤ s.psc + 1) : s.pscWraps = true := decide_eq_true h

theorem pscWraps_false {s : State} (h : s.psc + 1 < s.params.clkKHz) : s.pscWraps = false :=
  decide_eq_false (Nat.not_le.2 h)

theorem le_of_pscWraps {s : State} (h : s.pscWraps = true) : s.params.clkKHz ≤ s.psc + 1 := of_decide_eq_true h

theorem lt_of_not_pscWraps {s : State} (h : s.pscWraps = false) : s.psc + 1 < s.params.clkKHz :=
  Nat.not_le.1 (of_decide_eq_false h)

/-! ### Flush, raise, reject -/

theorem flush_eq (s : State) :
    s.flush = { s with lastw := s.cfg, lastwValid := true, trace := s.trace ++ [.write s.cfg] } := rfl

theorem raise_eq (s : State) (st : Status) : s.raise st = { s with resp := respWord st 0#15, fsm := .resp } := rfl

theorem reject_eq (s : State) (st : Status) :
    s.reject st = { s with op := .init, resp := respWord st 0#15, fsm := .resp } := rfl

/-! ### Response words -/

@[simp] theorem respStatus_respWord (st : Status) (code : RawCode) : respStatus (respWord st code) = st.code := by
  ext i hi
  simp only [respStatus, respWord, BitVec.getElem_extractLsb', BitVec.getLsbD_append]
  simp [hi]

@[simp] theorem respCode_respWord (st : Status) (code : RawCode) : respCode (respWord st code) = code := by
  ext i hi
  simp only [respCode, respWord, BitVec.getElem_extractLsb', BitVec.getLsbD_append]
  simp [hi]

/-! ### Acceptance, reset, the end of a clock -/

theorem whenIdle_idle {s : State} (h : s.fsm = .idle) (k : State → State) : whenIdle s k = .next (k s) := by
  simp [whenIdle, h]

theorem whenIdle_busy {s : State} (h : s.fsm ≠ .idle) (k : State → State) : whenIdle s k = .next s := by
  simp [whenIdle, h]

/-- A dispatch answers a next state always. -/
theorem whenIdle_next {s t : State} {k : State → State} (h : whenIdle s k = .next t) :
    (s.fsm = .idle ∧ t = k s) ∨ (s.fsm ≠ .idle ∧ t = s) := by
  by_cases hs : s.fsm = .idle
  · rw [whenIdle_idle hs] at h
    exact .inl ⟨hs, (Host.Outcome.next.inj h).symm⟩
  · rw [whenIdle_busy hs] at h
    exact .inr ⟨hs, (Host.Outcome.next.inj h).symm⟩

@[simp] theorem afterward_next (s : State) (f : State → State) : afterward (.next s) f = .next (f s) := rfl

theorem afterward_eq_next {o : Host.Outcome State Fault Refusal} {f : State → State} {t : State}
    (h : afterward o f = .next t) : ∃ u, o = .next u ∧ t = f u := by
  cases o with
  | next u => exact ⟨u, rfl, (Host.Outcome.next.inj h).symm⟩
  | fault r => exact absurd h (by simp [afterward])
  | refused r => exact absurd h (by simp [afterward])

theorem argumentsOk_iff (filt wires : Nat) :
    argumentsOk filt wires = true ↔ (wires = 2 ∨ wires = 3 ∨ wires = 4) ∧ (filt = 50 ∨ filt = 60) := by
  simp [argumentsOk, wiresOk, filtOk, or_assoc]

theorem now_of_running {s : State} (h : s.lines.rstN = true) : s.now = s := by simp [State.now, h]

@[simp] theorem withLines_lines (s : State) (l : Lines) : (s.withLines l).lines = l := rfl

theorem lines_of_cons {s : State} {l : Lines} {ls : List Lines} (h : s.inputs = l :: ls) : s.lines = l := by
  simp [State.lines, h]

end Sys2Proof.Machine
end

