-- ==== Sys2Proof/Laws/PerInstr.lean ====
section
/-! SUPPORT. Statements made for each command. -/

namespace Sys2Proof.Laws

/-- The match value of a command's row of spec/opcode_table.json. -/
def tableMatch : Instr → Word
  | .configure _ _ _ _ => 0x10000000#32
  | .setBias _ => 0x20000000#32
  | .read => 0x30000000#32

/-- The mask of a command's row. -/
def tableMask : Instr → Word
  | .configure _ _ _ _ => 0xF3FF0000#32
  | .setBias _ => 0xFFFFFFFE#32
  | .read => 0xFFFFFFFF#32

/-- The word of a well-formed command lies in its row of the opcode table: the bits under the mask are the match value
(R63, R64, R65). -/
def EncodeInTable.Statement (i : Instr) : Prop := i.wf = true → encode i &&& tableMask i = tableMatch i

theorem EncodeInTable.configure (rv zv : Bool) (filt wires : Nat) :
    EncodeInTable.Statement (.configure rv zv filt wires) := by
  intro h
  simp only [Instr.wf, fitsByte, Bool.and_eq_true, decide_eq_true_eq] at h
  have e := encode_configure rv zv (BitVec.ofNat 8 filt) (BitVec.ofNat 8 wires)
  rw [BitVec.toNat_ofNat, BitVec.toNat_ofNat, Nat.mod_eq_of_lt h.1, Nat.mod_eq_of_lt h.2] at e
  rw [e, tableMask, tableMatch, and_eq_iff]
  intro i hi
  simp only [BitVec.getLsbD_append]
  interval_cases i <;> simp

theorem EncodeInTable.setBias (en : Bool) : EncodeInTable.Statement (.setBias en) := by
  intro _
  cases en <;> rfl

theorem EncodeInTable.read : EncodeInTable.Statement .read := fun _ => rfl

end Sys2Proof.Laws
end

