-- ==== Sys2Proof/Laws/Sequencer.lean ====
section
/-! SUPPORT. What each micro-operation that can go more than one way does, case by case, with when it stops. The others
are compositions of named updates. -/

namespace Sys2Proof.Machine

/-! ### R86 -/

theorem microFcClr_read {s : State} (h : s.op = .read) :
    microFcClr s = .next ((s.setFclr false).flush.goto .biasOnW) := by simp [microFcClr, h]

theorem microFcClr_configure {s : State} (h : s.op = .configure) :
    microFcClr s = .next ((s.setFclr false).flush.respond .ok 0#15) := by simp [microFcClr, h]

theorem microFcClr_init {s : State} (h : s.op = .init) :
    microFcClr s = .next ((s.setFclr false).flush.goto .idle) := by simp [microFcClr, h]

theorem microFcClr_setBias {s : State} (h : s.op = .setBias) : microFcClr s = .fault .opCannotOccur := by
  simp [microFcClr, h]

/-! ### R92 -/

theorem microBiasOffW_read {s : State} (h : s.op = .read) :
    microBiasOffW s = .next (bif faultBit s.raw16 then (s.setBias false).flush.raise .hardwareFault
      else (s.setBias false).flush.respond .ok (rawCode s.raw16)) := by simp [microBiasOffW, h]

theorem microBiasOffW_setBias {s : State} (h : s.op = .setBias) :
    microBiasOffW s = .next ((s.setBias false).flush.respond .ok 0#15) := by simp [microBiasOffW, h]

theorem microBiasOffW_other {s : State} (h : s.op = .init ∨ s.op = .configure) :
    microBiasOffW s = .fault .opCannotOccur := by
  rcases h with h | h <;> simp [microBiasOffW, h]

/-! ### R88 -/

theorem microWarmup_zero {s : State} (h : s.bwt = 0#4) : microWarmup s = .fault .tickAtZero := by
  simp [microWarmup, h]

theorem microWarmup_on {s : State} (h0 : s.bwt ≠ 0#4) (h1 : s.bwt ≠ 1#4) : microWarmup s = .next s.tickBwt := by
  simp [microWarmup, h0, h1]

theorem microWarmup_read {s : State} (h : s.bwt = 1#4) (ho : s.op = .read) :
    microWarmup s = .next (s.tickBwt.goto .trigW) := by simp [microWarmup, h, ho]

theorem microWarmup_setBias {s : State} (h : s.bwt = 1#4) (ho : s.op = .setBias) :
    microWarmup s = .next (s.tickBwt.respond .ok 0#15) := by simp [microWarmup, h, ho]

theorem microWarmup_other {s : State} (h : s.bwt = 1#4) (ho : s.op = .init ∨ s.op = .configure) :
    microWarmup s = .fault .opCannotOccur := by
  rcases ho with ho | ho <;> simp [microWarmup, h, ho]

/-! ### R90 -/

theorem microConv_zero {s : State} (h : s.ctc = 0#6) : microConv s = .fault .tickAtZero := by
  simp [microConv, h]

theorem microConv_on {s : State} (h0 : s.ctc ≠ 0#6) (h1 : s.ctc ≠ 1#6) : microConv s = .next s.tickCtc := by
  simp [microConv, h0, h1]

theorem microConv_last {s : State} (h : s.ctc = 1#6) :
    microConv s = .next ((s.tickCtc.setOneshot false).goto .rtdR) := by simp [microConv, h]

end Sys2Proof.Machine
end

