-- ==== Sys2Proof/Laws/Step.lean ====
section
/-! SUPPORT. What a step can do, said once (`step_cases`), and what the event of a clock is in each state. Later proofs
cite these and do not unfold `step`. -/

namespace Sys2Proof.Machine

open Sys2Proof.Safety

/-! ### The event of a clock -/

theorem step_eq (s : State) : step s = afterward (deliver (enabledEvent s) s) State.endClock := rfl

theorem enabledEvent_reset {s : State} (h : s.lines.rstN = false) : enabledEvent s = .reset := by
  simp [enabledEvent, h]

/-- Step of a clock with reset asserted. -/
theorem step_reset {s : State} (h : s.lines.rstN = false) : step s = .next s.applyReset.endClock := by
  simp [step_eq, enabledEvent_reset h, deliver]

/-! ### Every way a step can go on -/

/-- `StepCase s u`: the block goes from `s` to `u` in one clock (before the lines of the next clock come up). One
constructor for each way the rules give; each carries the guard that the step tests. -/
inductive StepCase (s : State) : State → Prop where
  | reset : s.lines.rstN = false → StepCase s s.applyReset
  | configure (rv zv : Bool) (filt wires : Nat) : s.lines.rstN = true → s.fsm = .idle → s.lines.cmdValid = true →
      decode s.lines.cmdWord = .ok (.configure rv zv filt wires) → argumentsOk filt wires = true →
      StepCase s ((s.emit (.accept s.lines.cmdWord)).beginConfigure rv zv filt wires)
  | badArgument (rv zv : Bool) (filt wires : Nat) : s.lines.rstN = true → s.fsm = .idle → s.lines.cmdValid = true →
      decode s.lines.cmdWord = .ok (.configure rv zv filt wires) → argumentsOk filt wires = false →
      StepCase s ((s.emit (.accept s.lines.cmdWord)).reject .invalidArgument)
  | setBias (en : Bool) : s.lines.rstN = true → s.fsm = .idle → s.lines.cmdValid = true →
      decode s.lines.cmdWord = .ok (.setBias en) →
      StepCase s (((s.emit (.accept s.lines.cmdWord)).setOp .setBias).goto (bif en then .biasOnW else .biasOffW))
  | read : s.lines.rstN = true → s.fsm = .idle → s.lines.cmdValid = true → decode s.lines.cmdWord = .ok .read →
      StepCase s (((s.emit (.accept s.lines.cmdWord)).setOp .read).goto .fcSet)
  | illegal (e : DecodeError) : s.lines.rstN = true → s.fsm = .idle → s.lines.cmdValid = true →
      decode s.lines.cmdWord = .error e →
      StepCase s ((s.emit (.accept s.lines.cmdWord)).reject .illegalCommand)
  | cfgW : s.lines.rstN = true → s.fsm = .cfgW → s.lines.busAck = true → StepCase s (microCfgW s)
  | fcSet : s.lines.rstN = true → s.fsm = .fcSet → s.lines.busAck = true → StepCase s (microFcSet s)
  | fcClrRead : s.lines.rstN = true → s.fsm = .fcClr → s.lines.busAck = true → s.op = .read →
      StepCase s ((s.setFclr false).flush.goto .biasOnW)
  | fcClrConfigure : s.lines.rstN = true → s.fsm = .fcClr → s.lines.busAck = true → s.op = .configure →
      StepCase s ((s.setFclr false).flush.respond .ok 0#15)
  | fcClrInit : s.lines.rstN = true → s.fsm = .fcClr → s.lines.busAck = true → s.op = .init →
      StepCase s ((s.setFclr false).flush.goto .idle)
  | biasOnW : s.lines.rstN = true → s.fsm = .biasOnW → s.lines.busAck = true → StepCase s (microBiasOnW s)
  | warmupOn : s.lines.rstN = true → s.fsm = .warmup → s.pscWraps = true → s.bwt ≠ 0#4 → s.bwt ≠ 1#4 →
      StepCase s s.pscWrap.tickBwt
  | warmupRead : s.lines.rstN = true → s.fsm = .warmup → s.pscWraps = true → s.bwt = 1#4 → s.op = .read →
      StepCase s (s.pscWrap.tickBwt.goto .trigW)
  | warmupSetBias : s.lines.rstN = true → s.fsm = .warmup → s.pscWraps = true → s.bwt = 1#4 → s.op = .setBias →
      StepCase s (s.pscWrap.tickBwt.respond .ok 0#15)
  | trigW : s.lines.rstN = true → s.fsm = .trigW → s.lines.busAck = true → StepCase s (microTrigW s)
  | convOn : s.lines.rstN = true → s.fsm = .conv → s.pscWraps = true → s.ctc ≠ 0#6 → s.ctc ≠ 1#6 →
      StepCase s s.pscWrap.tickCtc
  | convLast : s.lines.rstN = true → s.fsm = .conv → s.pscWraps = true → s.ctc = 1#6 →
      StepCase s ((s.pscWrap.tickCtc.setOneshot false).goto .rtdR)
  | rtdR : s.lines.rstN = true → s.fsm = .rtdR → s.lines.busAck = true → StepCase s (microRtdR s.lines.busRdata s)
  | biasOffRead : s.lines.rstN = true → s.fsm = .biasOffW → s.lines.busAck = true → s.op = .read →
      StepCase s (bif faultBit s.raw16 then (s.setBias false).flush.raise .hardwareFault
        else (s.setBias false).flush.respond .ok (rawCode s.raw16))
  | biasOffSetBias : s.lines.rstN = true → s.fsm = .biasOffW → s.lines.busAck = true → s.op = .setBias →
      StepCase s ((s.setBias false).flush.respond .ok 0#15)
  | take : s.lines.rstN = true → s.fsm = .resp → s.lines.respReady = true → StepCase s (microResp s)
  | count : s.lines.rstN = true → timed s.fsm = true → s.pscWraps = false → StepCase s s.pscCount
  | wait : s.lines.rstN = true → timed s.fsm = false → Waits s → StepCase s s

/-- The event of a clock does what one of the cases says. -/
theorem deliver_cases {s u : State} (h : deliver (enabledEvent s) s = .next u) : StepCase s u := by
  by_cases hr : s.lines.rstN = false
  · rw [enabledEvent_reset hr] at h
    cases h
    exact .reset hr
  have hr' : s.lines.rstN = true := by simpa using hr
  cases hf : s.fsm with
  | idle =>
    cases hv : s.lines.cmdValid with
    | false =>
      simp only [enabledEvent, hr', hf, hv, deliver] at h
      cases h
      exact .wait hr' (by simp [timed, hf]) (by simp [Waits, hf, hv])
    | true =>
      have h' : acceptWord s.lines.cmdWord s = .next u := by
        simpa [enabledEvent, hr', hf, hv, deliver] using h
      simp only [acceptWord, hf, if_true] at h'
      have hi : (s.emit (.accept s.lines.cmdWord)).fsm = .idle := hf
      cases hd : decode s.lines.cmdWord with
      | error e =>
        rw [hd] at h'
        cases h'
        exact .illegal e hr' hf hv hd
      | ok i =>
        rw [hd] at h'
        cases i with
        | configure rv zv filt wires =>
          simp only [exec, execConfigure, whenIdle_idle hi] at h'
          cases h'
          cases ha : argumentsOk filt wires with
          | true => exact .configure rv zv filt wires hr' hf hv hd ha
          | false => exact .badArgument rv zv filt wires hr' hf hv hd ha
        | setBias en =>
          simp only [exec, execSetBias, whenIdle_idle hi] at h'
          cases h'
          exact .setBias en hr' hf hv hd
        | read =>
          simp only [exec, execRead, whenIdle_idle hi] at h'
          cases h'
          exact .read hr' hf hv hd
  | warmup =>
    cases hw : s.pscWraps with
    | false =>
      have h' : s.pscCount = u := by simpa [enabledEvent, hr', hf, hw, deliver] using h
      subst h'
      exact .count hr' (by simp [timed, hf]) hw
    | true =>
      have h' : microWarmup s.pscWrap = .next u := by simpa [enabledEvent, hr', hf, hw, deliver, tick] using h
      by_cases h0 : s.bwt = 0#4
      · rw [microWarmup_zero (s := s.pscWrap) h0] at h'
        cases h'
      by_cases h1 : s.bwt = 1#4
      · cases ho : s.op with
        | init => rw [microWarmup_other (s := s.pscWrap) h1 (.inl ho)] at h'; cases h'
        | configure => rw [microWarmup_other (s := s.pscWrap) h1 (.inr ho)] at h'; cases h'
        | setBias =>
          rw [microWarmup_setBias (s := s.pscWrap) h1 ho] at h'
          cases h'
          exact .warmupSetBias hr' hf hw h1 ho
        | read =>
          rw [microWarmup_read (s := s.pscWrap) h1 ho] at h'
          cases h'
          exact .warmupRead hr' hf hw h1 ho
      · rw [microWarmup_on (s := s.pscWrap) h0 h1] at h'
        cases h'
        exact .warmupOn hr' hf hw h0 h1
  | conv =>
    cases hw : s.pscWraps with
    | false =>
      have h' : s.pscCount = u := by simpa [enabledEvent, hr', hf, hw, deliver] using h
      subst h'
      exact .count hr' (by simp [timed, hf]) hw
    | true =>
      have h' : microConv s.pscWrap = .next u := by simpa [enabledEvent, hr', hf, hw, deliver, tick] using h
      by_cases h0 : s.ctc = 0#6
      · rw [microConv_zero (s := s.pscWrap) h0] at h'
        cases h'
      by_cases h1 : s.ctc = 1#6
      · rw [microConv_last (s := s.pscWrap) h1] at h'
        cases h'
        exact .convLast hr' hf hw h1
      · rw [microConv_on (s := s.pscWrap) h0 h1] at h'
        cases h'
        exact .convOn hr' hf hw h0 h1
  | resp =>
    cases hv : s.lines.respReady with
    | false =>
      simp only [enabledEvent, hr', hf, hv, deliver] at h
      cases h
      exact .wait hr' (by simp [timed, hf]) (by simp [Waits, hf, hv])
    | true =>
      have h' : microResp s = u := by simpa [enabledEvent, hr', hf, hv, deliver] using h
      subst h'
      exact .take hr' hf hv
  | fcClr =>
    cases hv : s.lines.busAck with
    | false =>
      simp only [enabledEvent, hr', hf, hv, deliver] at h
      cases h
      exact .wait hr' (by simp [timed, hf]) (by simp [Waits, hf, hv])
    | true =>
      have h' : microFcClr s = .next u := by simpa [enabledEvent, hr', hf, hv, deliver, writeDone] using h
      simp only [microFcClr] at h'
      cases ho : s.op <;> rw [ho] at h' <;> cases h'
      · exact .fcClrInit hr' hf hv ho
      · exact .fcClrConfigure hr' hf hv ho
      · exact .fcClrRead hr' hf hv ho
  | biasOffW =>
    cases hv : s.lines.busAck with
    | false =>
      simp only [enabledEvent, hr', hf, hv, deliver] at h
      cases h
      exact .wait hr' (by simp [timed, hf]) (by simp [Waits, hf, hv])
    | true =>
      have h' : microBiasOffW s = .next u := by simpa [enabledEvent, hr', hf, hv, deliver, writeDone] using h
      simp only [microBiasOffW] at h'
      cases ho : s.op <;> rw [ho] at h' <;> cases h'
      · exact .biasOffSetBias hr' hf hv ho
      · exact .biasOffRead hr' hf hv ho
  | rtdR =>
    cases hv : s.lines.busAck with
    | false =>
      simp only [enabledEvent, hr', hf, hv, deliver] at h
      cases h
      exact .wait hr' (by simp [timed, hf]) (by simp [Waits, hf, hv])
    | true =>
      have h' : microRtdR s.lines.busRdata s = u := by simpa [enabledEvent, hr', hf, hv, deliver] using h
      subst h'
      exact .rtdR hr' hf hv
  | cfgW =>
    cases hv : s.lines.busAck with
    | false =>
      simp only [enabledEvent, hr', hf, hv, deliver] at h
      cases h
      exact .wait hr' (by simp [timed, hf]) (by simp [Waits, hf, hv])
    | true =>
      have h' : microCfgW s = u := by simpa [enabledEvent, hr', hf, hv, deliver, writeDone] using h
      subst h'
      exact .cfgW hr' hf hv
  | fcSet =>
    cases hv : s.lines.busAck with
    | false =>
      simp only [enabledEvent, hr', hf, hv, deliver] at h
      cases h
      exact .wait hr' (by simp [timed, hf]) (by simp [Waits, hf, hv])
    | true =>
      have h' : microFcSet s = u := by simpa [enabledEvent, hr', hf, hv, deliver, writeDone] using h
      subst h'
      exact .fcSet hr' hf hv
  | biasOnW =>
    cases hv : s.lines.busAck with
    | false =>
      simp only [enabledEvent, hr', hf, hv, deliver] at h
      cases h
      exact .wait hr' (by simp [timed, hf]) (by simp [Waits, hf, hv])
    | true =>
      have h' : microBiasOnW s = u := by simpa [enabledEvent, hr', hf, hv, deliver, writeDone] using h
      subst h'
      exact .biasOnW hr' hf hv
  | trigW =>
    cases hv : s.lines.busAck with
    | false =>
      simp only [enabledEvent, hr', hf, hv, deliver] at h
      cases h
      exact .wait hr' (by simp [timed, hf]) (by simp [Waits, hf, hv])
    | true =>
      have h' : microTrigW s = u := by simpa [enabledEvent, hr', hf, hv, deliver, writeDone] using h
      subst h'
      exact .trigW hr' hf hv

/-- Every step that goes on is one of the cases, with the lines advanced. -/
theorem step_cases {s t : State} (h : step s = .next t) : ∃ u, StepCase s u ∧ t = u.endClock := by
  obtain ⟨u, hu, rfl⟩ := afterward_eq_next h
  exact ⟨u, deliver_cases hu, rfl⟩

/-! ### The step of each state, from its guard -/

theorem step_of_event {s : State} {e : Event} (h : enabledEvent s = e) :
    step s = afterward (deliver e s) State.endClock := by rw [step_eq, h]

/-- An acknowledged bus write. -/
theorem step_writeDone {s : State} (hr : s.lines.rstN = true) (ha : s.lines.busAck = true)
    (hf : s.fsm = .cfgW ∨ s.fsm = .fcSet ∨ s.fsm = .fcClr ∨ s.fsm = .biasOnW ∨ s.fsm = .trigW ∨ s.fsm = .biasOffW) :
    step s = afterward (writeDone s) State.endClock := by
  rcases hf with hf | hf | hf | hf | hf | hf <;>
    exact step_of_event (e := .writeDone) (by simp [enabledEvent, hr, ha, hf])

/-- The acknowledged bus read. -/
theorem step_readDone {s : State} (hr : s.lines.rstN = true) (ha : s.lines.busAck = true) (hf : s.fsm = .rtdR) :
    step s = .next (microRtdR s.lines.busRdata s).endClock := by
  rw [step_of_event (e := .readDone s.lines.busRdata) (by simp [enabledEvent, hr, ha, hf])]
  simp [deliver, hf]

/-- A tick of the warm-up. -/
theorem step_warmup {s : State} (hr : s.lines.rstN = true) (hf : s.fsm = .warmup) (hw : s.pscWraps = true) :
    step s = afterward (microWarmup s.pscWrap) State.endClock := by
  rw [step_of_event (e := .tick) (by simp [enabledEvent, hr, hf, hw])]
  simp [deliver, tick, hf]

/-- A tick of the conversion wait. -/
theorem step_conv {s : State} (hr : s.lines.rstN = true) (hf : s.fsm = .conv) (hw : s.pscWraps = true) :
    step s = afterward (microConv s.pscWrap) State.endClock := by
  rw [step_of_event (e := .tick) (by simp [enabledEvent, hr, hf, hw])]
  simp [deliver, tick, hf]

/-- A clock of a timed wait between two ticks. -/
theorem step_count {s : State} (hr : s.lines.rstN = true) (hf : timed s.fsm = true) (hw : s.pscWraps = false) :
    step s = .next s.pscCount.endClock := by
  have hf' : s.fsm = .warmup ∨ s.fsm = .conv := by simpa [timed] using hf
  have he : enabledEvent s = .count := by rcases hf' with h | h <;> simp [enabledEvent, hr, h, hw]
  rw [step_of_event he]
  simp [deliver, hf']

/-- The response is taken. -/
theorem step_take {s : State} (hr : s.lines.rstN = true) (hf : s.fsm = .resp) (hv : s.lines.respReady = true) :
    step s = .next (microResp s).endClock := by
  rw [step_of_event (e := .take) (by simp [enabledEvent, hr, hf, hv])]
  simp [deliver, hf]

/-- A command is accepted. -/
theorem step_accept {s : State} (hr : s.lines.rstN = true) (hf : s.fsm = .idle) (hv : s.lines.cmdValid = true) :
    step s = afterward (acceptWord s.lines.cmdWord s) State.endClock :=
  step_of_event (e := .accept s.lines.cmdWord) (by simp [enabledEvent, hr, hf, hv])

/-- A state that is no timed wait and waits (R96) only lets the clock end. -/
theorem step_wait {s : State} (hr : s.lines.rstN = true) (hf : timed s.fsm = false) (hw : Waits s) :
    step s = .next s.endClock := by
  have he : enabledEvent s = .none := by
    cases h : s.fsm <;> simp [timed, Waits, h] at hf hw <;> simp [enabledEvent, hr, h, hw]
  rw [step_of_event he]
  rfl

end Sys2Proof.Machine
end

