-- ==== Sys2Proof/Laws/Runs.lean ====
section
/-! SUPPORT. Runs of many clocks: a run followed by a run, the clocks in which a state waits, and the ticks of a timed
wait. The statements about whole commands are assembled from these. -/

namespace Sys2Proof.Machine

open Sys2Proof.Safety

/-- `k` clocks of the block. -/
abbrev run (k : Nat) (s : State) : Host.Outcome State Fault Refusal := Host.Core.run Sys2Proof.core k s

theorem run_zero (s : State) : run 0 s = .next s := rfl

theorem run_succ_of_step {s t : State} (h : step s = .next t) (k : Nat) : run (k + 1) s = run k t := by
  have h' : Sys2Proof.core.step s = Host.Outcome.next t := h
  simp only [run, Host.Core.run, h']
  rfl

theorem run_one {s t : State} (h : step s = .next t) : run 1 s = .next t := run_succ_of_step h 0

/-- A run that answers a next state goes on from it. -/
theorem run_add {m : Nat} : ∀ {s t : State}, run m s = .next t → ∀ n, run (m + n) s = run n t := by
  induction m with
  | zero =>
    intro s t h n
    rw [run_zero] at h
    cases h
    rw [Nat.zero_add]
  | succ m ih =>
    intro s t h n
    cases hs : step s with
    | next u =>
      rw [run_succ_of_step hs] at h
      rw [Nat.succ_add, run_succ_of_step hs]
      exact ih h n
    | fault r =>
      have hs' : Sys2Proof.core.step s = Host.Outcome.fault r := hs
      simp only [run, Host.Core.run, hs'] at h
      cases h
    | refused r =>
      have hs' : Sys2Proof.core.step s = Host.Outcome.refused r := hs
      simp only [run, Host.Core.run, hs'] at h
      cases h

/-- A run, and then one more clock. -/
theorem run_step {m : Nat} {s t u : State} (h : run m s = .next t) (hs : step t = .next u) :
    run (m + 1) s = .next u := by
  rw [run_add h, run_one hs]

/-- Two runs, one after the other. -/
theorem run_trans {m n : Nat} {s t u : State} (h : run m s = .next t) (h' : run n t = .next u) :
    run (m + n) s = .next u := by rw [run_add h, h']

/-- A property that reset states have and steps keep holds of every reachable state. -/
theorem reachable_induction {P : State → Prop}
    (hreset : ∀ (p : Config.Params) (inputs : List Lines), 0 < p.clkKHz → P (State.resetWith p inputs))
    (hstep : ∀ s t, P s → step s = .next t → P t) : ∀ s, Reachable s → P s := by
  rintro s ⟨p, inputs, n, hp, hn⟩
  have key : ∀ (k : Nat) (a : State), P a → run k a = .next s → P s := by
    intro k
    induction k with
    | zero =>
      intro a ha h
      rw [run_zero] at h
      cases h
      exact ha
    | succ k ih =>
      intro a ha h
      cases hs : step a with
      | next u =>
        rw [run_succ_of_step hs] at h
        exact ih u (hstep a u ha hs) h
      | fault r =>
        have hs' : Sys2Proof.core.step a = Host.Outcome.fault r := hs
        simp only [run, Host.Core.run, hs'] at h
        cases h
      | refused r =>
        have hs' : Sys2Proof.core.step a = Host.Outcome.refused r := hs
        simp only [run, Host.Core.run, hs'] at h
        cases h
  exact key n _ (hreset p inputs hp) hn

/-! ### Waiting -/

/-- A state that waits in each of the clocks `ws` is still there after them. -/
theorem run_waiting {s : State} {ws rest : List Lines} (hf : timed s.fsm = false) (hin : s.inputs = ws ++ rest)
    (hw : ∀ l ∈ ws, l.rstN = true ∧ ∀ ls, Waits (s.setInputs (l :: ls))) :
    run ws.length s = .next (s.setInputs rest) := by
  induction ws generalizing s with
  | nil =>
    simp only [List.nil_append] at hin
    subst hin
    rfl
  | cons l ws ih =>
    obtain ⟨hr, hwl⟩ := hw l List.mem_cons_self
    have hin' : s.inputs = l :: (ws ++ rest) := hin
    have hlines : s.lines = l := lines_of_cons hin'
    have hwait : Waits s := by simpa only [State.setInputs, ← hin'] using hwl (ws ++ rest)
    have hs := step_wait (hlines ▸ hr) hf hwait
    rw [List.length_cons, run_succ_of_step hs]
    refine ih (s := s.endClock) hf (by simp [hin']) fun l' hl' => ?_
    exact hw l' (List.mem_cons_of_mem _ hl')

/-- The states with a bus transaction to wait for. -/
def inTransaction (f : Fsm) : Bool :=
  f == .cfgW || f == .fcSet || f == .fcClr || f == .biasOnW || f == .trigW || f == .rtdR || f == .biasOffW

/-- The clocks of a bus state before the acknowledge. -/
theorem run_until_ack {s : State} {ws rest : List Lines} (hf : inTransaction s.fsm = true) (hin : s.inputs = ws ++ rest)
    (hw : ∀ l ∈ ws, l.rstN = true ∧ l.busAck = false) : run ws.length s = .next (s.setInputs rest) := by
  refine run_waiting ?_ hin fun l hl => ⟨(hw l hl).1, fun ls => ?_⟩
  · cases h : s.fsm <;> simp [inTransaction, h] at hf <;> rfl
  · have hb : l.busAck = false := (hw l hl).2
    cases h : s.fsm <;> simp [inTransaction, h] at hf <;> simp [Waits, h, State.lines, hb]

/-- The clocks in which the host does not take the response. -/
theorem run_until_taken {s : State} {ws rest : List Lines} (hf : s.fsm = .resp) (hin : s.inputs = ws ++ rest)
    (hw : ∀ l ∈ ws, l.rstN = true ∧ l.respReady = false) : run ws.length s = .next (s.setInputs rest) := by
  refine run_waiting (by simp [timed, hf]) hin fun l hl => ⟨(hw l hl).1, fun ls => ?_⟩
  simp [Waits, hf, State.lines, (hw l hl).2]

/-- A run that ends with the step of its last state. -/
theorem run_then_step {m : Nat} {s t : State} (h : run m s = .next t) : run (m + 1) s = step t := by
  rw [run_add h]
  cases ht : step t with
  | next u => exact run_one ht
  | fault r =>
    have ht' : Sys2Proof.core.step t = Host.Outcome.fault r := ht
    simp only [run, Host.Core.run, ht']
    rfl
  | refused r =>
    have ht' : Sys2Proof.core.step t = Host.Outcome.refused r := ht
    simp only [run, Host.Core.run, ht']
    rfl

/-- A whole bus transaction: the step of its last clock, whatever the clocks before it carried. -/
theorem run_transact {s : State} {ws rest : List Lines} {a : Lines} (hf : inTransaction s.fsm = true)
    (hin : s.inputs = transact ws a ++ rest) (hb : BusAnswer ws a) :
    run (ws.length + 1) s = step (s.setInputs (a :: rest)) :=
  run_then_step (run_until_ack hf (by simpa [transact] using hin) hb.1)

/-! ### Whole transactions, one for each bus state

`s.setInputs rest` is the state with the clocks of the transaction already used up. -/

theorem run_cfgW {s : State} {ws rest : List Lines} {a : Lines} (hf : s.fsm = .cfgW)
    (hin : s.inputs = transact ws a ++ rest) (hb : BusAnswer ws a) :
    run (ws.length + 1) s = .next (microCfgW (s.setInputs rest)) := by
  rw [run_transact (by simp [inTransaction, hf]) hin hb]
  refine (step_writeDone (s := s.setInputs (a :: rest)) hb.2.1 hb.2.2 (.inl hf)).trans ?_
  simp only [writeDone, State.setInputs_fsm, hf]
  rfl

theorem run_fcSet {s : State} {ws rest : List Lines} {a : Lines} (hf : s.fsm = .fcSet)
    (hin : s.inputs = transact ws a ++ rest) (hb : BusAnswer ws a) :
    run (ws.length + 1) s = .next (microFcSet (s.setInputs rest)) := by
  rw [run_transact (by simp [inTransaction, hf]) hin hb]
  refine (step_writeDone (s := s.setInputs (a :: rest)) hb.2.1 hb.2.2 (.inr (.inl hf))).trans ?_
  simp only [writeDone, State.setInputs_fsm, hf]
  rfl

theorem run_fcClr_read {s : State} {ws rest : List Lines} {a : Lines} (hf : s.fsm = .fcClr) (ho : s.op = .read)
    (hin : s.inputs = transact ws a ++ rest) (hb : BusAnswer ws a) :
    run (ws.length + 1) s = .next (((s.setInputs rest).setFclr false).flush.goto .biasOnW) := by
  rw [run_transact (by simp [inTransaction, hf]) hin hb]
  refine (step_writeDone (s := s.setInputs (a :: rest)) hb.2.1 hb.2.2 (.inr (.inr (.inl hf)))).trans ?_
  simp only [writeDone, State.setInputs_fsm, hf]
  rw [microFcClr_read (by exact ho)]
  rfl

theorem run_fcClr_configure {s : State} {ws rest : List Lines} {a : Lines} (hf : s.fsm = .fcClr)
    (ho : s.op = .configure)
    (hin : s.inputs = transact ws a ++ rest) (hb : BusAnswer ws a) :
    run (ws.length + 1) s = .next (((s.setInputs rest).setFclr false).flush.respond .ok 0#15) := by
  rw [run_transact (by simp [inTransaction, hf]) hin hb]
  refine (step_writeDone (s := s.setInputs (a :: rest)) hb.2.1 hb.2.2 (.inr (.inr (.inl hf)))).trans ?_
  simp only [writeDone, State.setInputs_fsm, hf]
  rw [microFcClr_configure (by exact ho)]
  rfl

theorem run_fcClr_init {s : State} {ws rest : List Lines} {a : Lines} (hf : s.fsm = .fcClr) (ho : s.op = .init)
    (hin : s.inputs = transact ws a ++ rest) (hb : BusAnswer ws a) :
    run (ws.length + 1) s = .next (((s.setInputs rest).setFclr false).flush.goto .idle) := by
  rw [run_transact (by simp [inTransaction, hf]) hin hb]
  refine (step_writeDone (s := s.setInputs (a :: rest)) hb.2.1 hb.2.2 (.inr (.inr (.inl hf)))).trans ?_
  simp only [writeDone, State.setInputs_fsm, hf]
  rw [microFcClr_init (by exact ho)]
  rfl

theorem run_biasOnW {s : State} {ws rest : List Lines} {a : Lines} (hf : s.fsm = .biasOnW)
    (hin : s.inputs = transact ws a ++ rest) (hb : BusAnswer ws a) :
    run (ws.length + 1) s = .next (microBiasOnW (s.setInputs rest)) := by
  rw [run_transact (by simp [inTransaction, hf]) hin hb]
  refine (step_writeDone (s := s.setInputs (a :: rest)) hb.2.1 hb.2.2 (.inr (.inr (.inr (.inl hf))))).trans ?_
  simp only [writeDone, State.setInputs_fsm, hf]
  rfl

theorem run_trigW {s : State} {ws rest : List Lines} {a : Lines} (hf : s.fsm = .trigW)
    (hin : s.inputs = transact ws a ++ rest) (hb : BusAnswer ws a) :
    run (ws.length + 1) s = .next (microTrigW (s.setInputs rest)) := by
  rw [run_transact (by simp [inTransaction, hf]) hin hb]
  refine (step_writeDone (s := s.setInputs (a :: rest)) hb.2.1 hb.2.2 (.inr (.inr (.inr (.inr (.inl hf)))))).trans ?_
  simp only [writeDone, State.setInputs_fsm, hf]
  rfl

theorem run_biasOffW_setBias {s : State} {ws rest : List Lines} {a : Lines} (hf : s.fsm = .biasOffW)
    (ho : s.op = .setBias)
    (hin : s.inputs = transact ws a ++ rest) (hb : BusAnswer ws a) :
    run (ws.length + 1) s = .next (((s.setInputs rest).setBias false).flush.respond .ok 0#15) := by
  rw [run_transact (by simp [inTransaction, hf]) hin hb]
  refine (step_writeDone (s := s.setInputs (a :: rest)) hb.2.1 hb.2.2 (.inr (.inr (.inr (.inr (.inr hf)))))).trans ?_
  simp only [writeDone, State.setInputs_fsm, hf]
  rw [microBiasOffW_setBias (by exact ho)]
  rfl

theorem run_biasOffW_read {s : State} {ws rest : List Lines} {a : Lines} (hf : s.fsm = .biasOffW) (ho : s.op = .read)
    (hin : s.inputs = transact ws a ++ rest) (hb : BusAnswer ws a) :
    run (ws.length + 1) s = .next (bif faultBit s.raw16
      then ((s.setInputs rest).setBias false).flush.raise .hardwareFault
      else ((s.setInputs rest).setBias false).flush.respond .ok (rawCode s.raw16)) := by
  rw [run_transact (by simp [inTransaction, hf]) hin hb]
  refine (step_writeDone (s := s.setInputs (a :: rest)) hb.2.1 hb.2.2 (.inr (.inr (.inr (.inr (.inr hf)))))).trans ?_
  simp only [writeDone, State.setInputs_fsm, hf]
  rw [microBiasOffW_read (by exact ho)]
  rw [State.setInputs_raw16]
  cases faultBit s.raw16 <;> rfl

theorem run_rtdR {s : State} {ws rest : List Lines} {a : Lines} (hf : s.fsm = .rtdR)
    (hin : s.inputs = transact ws a ++ rest) (hb : BusAnswer ws a) :
    run (ws.length + 1) s = .next (microRtdR a.busRdata (s.setInputs rest)) := by
  rw [run_transact (by simp [inTransaction, hf]) hin hb]
  exact step_readDone (s := s.setInputs (a :: rest)) hb.2.1 hb.2.2 hf

/-- The response phase: the step in which the host takes the response. -/
theorem run_taken {s : State} {ws rest : List Lines} {k : Lines} (hf : s.fsm = .resp)
    (hin : s.inputs = transact ws k ++ rest) (hk : HostTakes ws k) :
    run (ws.length + 1) s = .next (microResp (s.setInputs rest)) := by
  rw [run_then_step (run_until_taken hf (by simpa [transact] using hin) hk.1)]
  exact step_take (s := s.setInputs (k :: rest)) hk.2.1 hf hk.2.2

/-! ### Ticks -/

theorem rstN_of_take {s : State} {n : Nat} (h : ∀ l ∈ s.inputs.take (n + 1), l.rstN = true) :
    s.lines.rstN = true := by
  cases hi : s.inputs with
  | nil => simp [State.lines, hi, Lines.quiet]
  | cons l ls =>
    rw [lines_of_cons hi]
    exact h l (by simp [hi])

theorem rstN_of_take_tail {s : State} {n : Nat} (h : ∀ l ∈ s.inputs.take (n + 1), l.rstN = true) :
    ∀ l ∈ s.inputs.tail.take n, l.rstN = true := by
  intro l hl
  refine h l ?_
  cases hi : s.inputs with
  | nil => simp [hi] at hl
  | cons l' ls =>
    rw [hi, List.tail_cons] at hl
    exact List.mem_cons_of_mem _ hl

theorem rstN_of_drop {s : State} {n : Nat} (h : ∀ l ∈ s.inputs.take (n + 1), l.rstN = true) :
    ((s.inputs.drop n).headD .quiet).rstN = true := by
  cases hd : s.inputs.drop n with
  | nil => rfl
  | cons a as =>
    refine h a ?_
    rw [List.take_add, hd]
    simp

/-- Inside the warm-up: after `n` clocks, fewer than are left, the block still waits, and timer and prescaler together
have counted `n` clocks. -/
theorem run_in_warmup {n : Nat} : ∀ {s : State}, s.fsm = .warmup → s.psc < s.params.clkKHz →
    (∀ l ∈ s.inputs.take n, l.rstN = true) → n + s.psc < s.bwt.toNat * s.params.clkKHz →
    ∃ (b : BitVec 4) (p : Nat), run n s = .next { s with bwt := b, psc := p, inputs := s.inputs.drop n } ∧
      p < s.params.clkKHz ∧ b.toNat * s.params.clkKHz + n + s.psc = s.bwt.toNat * s.params.clkKHz + p := by
  induction n with
  | zero =>
    intro s _ hp _ _
    exact ⟨s.bwt, s.psc, rfl, hp, rfl⟩
  | succ n ih =>
    intro s hf hp hr hn
    have hr0 := rstN_of_take hr
    have hr' := rstN_of_take_tail hr
    by_cases hw : s.params.clkKHz ≤ s.psc + 1
    · have hb : 2 ≤ s.bwt.toNat := by
        by_contra hb
        have : s.bwt.toNat * s.params.clkKHz ≤ 1 * s.params.clkKHz := Nat.mul_le_mul_right _ (by omega)
        omega
      have h0 : s.pscWrap.bwt ≠ 0#4 := fun h => by rw [show s.bwt = 0#4 from h] at hb; simp at hb
      have h1 : s.pscWrap.bwt ≠ 1#4 := fun h => by rw [show s.bwt = 1#4 from h] at hb; simp at hb
      have hs := step_warmup hr0 hf (pscWraps_true hw)
      rw [microWarmup_on h0 h1, afterward_next] at hs
      have hbt : (s.bwt - 1#4).toNat = s.bwt.toNat - 1 := by
        have := s.bwt.isLt
        rw [BitVec.toNat_sub]
        simp
        omega
      have hmul : (s.bwt.toNat - 1) * s.params.clkKHz + s.params.clkKHz = s.bwt.toNat * s.params.clkKHz := by
        rw [← Nat.succ_mul, Nat.succ_eq_add_one, Nat.sub_add_cancel (by omega)]
      have hbound : n + 0 < (s.bwt - 1#4).toNat * s.params.clkKHz := by rw [hbt]; omega
      obtain ⟨b, p, hrun, hlt, heq⟩ := ih (s := s.pscWrap.tickBwt.endClock) hf (Nat.zero_lt_of_lt hp) hr' hbound
      refine ⟨b, p, ?_, hlt, ?_⟩
      · rw [run_succ_of_step hs, hrun]
        simp [State.endClock, State.tickBwt, State.pscWrap, List.drop_tail]
      · have heq' : b.toNat * s.params.clkKHz + n + 0 = (s.bwt - 1#4).toNat * s.params.clkKHz + p := heq
        rw [hbt] at heq'
        omega
    · have hs := step_count hr0 (by simp [timed, hf]) (pscWraps_false (s := s) (by omega))
      have hbound : n + (s.psc + 1) < s.bwt.toNat * s.params.clkKHz := by omega
      obtain ⟨b, p, hrun, hlt, heq⟩ :=
        ih (s := s.pscCount.endClock) hf (show s.psc + 1 < s.params.clkKHz by omega) hr' hbound
      refine ⟨b, p, ?_, hlt, ?_⟩
      · rw [run_succ_of_step hs, hrun]
        simp [State.endClock, State.pscCount, List.drop_tail]
      · have heq' : b.toNat * s.params.clkKHz + n + (s.psc + 1) = s.bwt.toNat * s.params.clkKHz + p := heq
        omega

/-- The last tick of the warm-up, with all the clocks before it. -/
theorem run_warmup {n : Nat} {s : State} (hf : s.fsm = .warmup) (hp : s.psc < s.params.clkKHz)
    (hr : ∀ l ∈ s.inputs.take (n + 1), l.rstN = true) (hn : n + 1 + s.psc = s.bwt.toNat * s.params.clkKHz) :
    run (n + 1) s =
      afterward (microWarmup { s with bwt := 1#4, psc := 0, inputs := s.inputs.drop n }) State.endClock := by
  obtain ⟨b, p, hrun, hlt, heq⟩ :=
    run_in_warmup (n := n) hf hp (fun l hl => hr l (List.take_subset_take_left _ (Nat.le_succ n) hl)) (by omega)
  have hb : b.toNat = 1 := by
    rcases Nat.lt_or_ge b.toNat 2 with h | h
    · rcases Nat.eq_zero_or_pos b.toNat with h0 | h0
      · rw [h0] at heq; omega
      · omega
    · have := Nat.mul_le_mul_right s.params.clkKHz h
      omega
  obtain rfl : b = 1#4 := BitVec.eq_of_toNat_eq hb
  have hpe : s.params.clkKHz ≤ p + 1 := by simp at heq; omega
  rw [run_then_step hrun]
  exact step_warmup (s := { s with bwt := 1#4, psc := p, inputs := s.inputs.drop n })
    (rstN_of_drop hr) hf (pscWraps_true hpe)

/-- Inside the conversion wait, likewise. -/
theorem run_in_conv {n : Nat} : ∀ {s : State}, s.fsm = .conv → s.psc < s.params.clkKHz →
    (∀ l ∈ s.inputs.take n, l.rstN = true) → n + s.psc < s.ctc.toNat * s.params.clkKHz →
    ∃ (c : BitVec 6) (p : Nat), run n s = .next { s with ctc := c, psc := p, inputs := s.inputs.drop n } ∧
      p < s.params.clkKHz ∧ c.toNat * s.params.clkKHz + n + s.psc = s.ctc.toNat * s.params.clkKHz + p := by
  induction n with
  | zero =>
    intro s _ hp _ _
    exact ⟨s.ctc, s.psc, rfl, hp, rfl⟩
  | succ n ih =>
    intro s hf hp hr hn
    have hr0 := rstN_of_take hr
    have hr' := rstN_of_take_tail hr
    by_cases hw : s.params.clkKHz ≤ s.psc + 1
    · have hb : 2 ≤ s.ctc.toNat := by
        by_contra hb
        have : s.ctc.toNat * s.params.clkKHz ≤ 1 * s.params.clkKHz := Nat.mul_le_mul_right _ (by omega)
        omega
      have h0 : s.pscWrap.ctc ≠ 0#6 := fun h => by rw [show s.ctc = 0#6 from h] at hb; simp at hb
      have h1 : s.pscWrap.ctc ≠ 1#6 := fun h => by rw [show s.ctc = 1#6 from h] at hb; simp at hb
      have hs := step_conv hr0 hf (pscWraps_true hw)
      rw [microConv_on h0 h1, afterward_next] at hs
      have hbt : (s.ctc - 1#6).toNat = s.ctc.toNat - 1 := by
        have := s.ctc.isLt
        rw [BitVec.toNat_sub]
        simp
        omega
      have hmul : (s.ctc.toNat - 1) * s.params.clkKHz + s.params.clkKHz = s.ctc.toNat * s.params.clkKHz := by
        rw [← Nat.succ_mul, Nat.succ_eq_add_one, Nat.sub_add_cancel (by omega)]
      have hbound : n + 0 < (s.ctc - 1#6).toNat * s.params.clkKHz := by rw [hbt]; omega
      obtain ⟨c, p, hrun, hlt, heq⟩ := ih (s := s.pscWrap.tickCtc.endClock) hf (Nat.zero_lt_of_lt hp) hr' hbound
      refine ⟨c, p, ?_, hlt, ?_⟩
      · rw [run_succ_of_step hs, hrun]
        simp [State.endClock, State.tickCtc, State.pscWrap, List.drop_tail]
      · have heq' : c.toNat * s.params.clkKHz + n + 0 = (s.ctc - 1#6).toNat * s.params.clkKHz + p := heq
        rw [hbt] at heq'
        omega
    · have hs := step_count hr0 (by simp [timed, hf]) (pscWraps_false (s := s) (by omega))
      have hbound : n + (s.psc + 1) < s.ctc.toNat * s.params.clkKHz := by omega
      obtain ⟨c, p, hrun, hlt, heq⟩ :=
        ih (s := s.pscCount.endClock) hf (show s.psc + 1 < s.params.clkKHz by omega) hr' hbound
      refine ⟨c, p, ?_, hlt, ?_⟩
      · rw [run_succ_of_step hs, hrun]
        simp [State.endClock, State.pscCount, List.drop_tail]
      · have heq' : c.toNat * s.params.clkKHz + n + (s.psc + 1) = s.ctc.toNat * s.params.clkKHz + p := heq
        omega

/-- The last tick of the conversion wait, with all the clocks before it. -/
theorem run_conv {n : Nat} {s : State} (hf : s.fsm = .conv) (hp : s.psc < s.params.clkKHz)
    (hr : ∀ l ∈ s.inputs.take (n + 1), l.rstN = true) (hn : n + 1 + s.psc = s.ctc.toNat * s.params.clkKHz) :
    run (n + 1) s =
      afterward (microConv { s with ctc := 1#6, psc := 0, inputs := s.inputs.drop n }) State.endClock := by
  obtain ⟨c, p, hrun, hlt, heq⟩ :=
    run_in_conv (n := n) hf hp (fun l hl => hr l (List.take_subset_take_left _ (Nat.le_succ n) hl)) (by omega)
  have hc : c.toNat = 1 := by
    rcases Nat.lt_or_ge c.toNat 2 with h | h
    · rcases Nat.eq_zero_or_pos c.toNat with h0 | h0
      · rw [h0] at heq; omega
      · omega
    · have := Nat.mul_le_mul_right s.params.clkKHz h
      omega
  obtain rfl : c = 1#6 := BitVec.eq_of_toNat_eq hc
  have hpe : s.params.clkKHz ≤ p + 1 := by simp at heq; omega
  rw [run_then_step hrun]
  exact step_conv (s := { s with ctc := 1#6, psc := p, inputs := s.inputs.drop n })
    (rstN_of_drop hr) hf (pscWraps_true hpe)

/-! ### Whole waits -/

theorem rstN_of_elapse {s : State} {ws rest : List Lines} {k n : Nat} (hin : s.inputs = ws ++ rest) (he : Elapse k ws)
    (hn : n ≤ k) : ∀ l ∈ s.inputs.take n, l.rstN = true := by
  intro l hl
  rw [hin, List.take_append_of_le_length (by rw [he.1]; exact hn)] at hl
  exact he.2 l (List.mem_of_mem_take hl)

theorem inputs_after_elapse {s : State} {ws rest : List Lines} {n : Nat} (hin : s.inputs = ws ++ rest)
    (he : Elapse (n + 1) ws) : (s.inputs.drop n).tail = rest := by
  rw [List.tail_drop, hin, ← he.1, List.drop_left]

/-- The whole warm-up of a READ, from a restarted prescaler. -/
theorem run_warmup_read {s : State} {ws rest : List Lines} (hf : s.fsm = .warmup) (ho : s.op = .read) (hp : s.psc = 0)
    (hc : 0 < s.params.clkKHz) (hb : 0 < s.bwt.toNat) (hin : s.inputs = ws ++ rest)
    (he : Elapse (s.bwt.toNat * s.params.clkKHz) ws) :
    run (s.bwt.toNat * s.params.clkKHz) s = .next { s with bwt := 0#4, fsm := .trigW, inputs := rest } := by
  obtain ⟨m, hm⟩ := Nat.exists_eq_add_one.2 (Nat.mul_pos hb hc)
  rw [hm] at he ⊢
  have h := run_warmup (n := m) (s := s) hf (by omega) (rstN_of_elapse hin he (Nat.le_refl _)) (by omega)
  rw [microWarmup_read (s := { s with bwt := 1#4, psc := 0, inputs := s.inputs.drop m }) rfl ho, afterward_next] at h
  rw [h]
  simp [State.endClock, State.goto, State.tickBwt, inputs_after_elapse hin he, hp]

/-- The whole warm-up of a SET_BIAS. -/
theorem run_warmup_setBias {s : State} {ws rest : List Lines} (hf : s.fsm = .warmup) (ho : s.op = .setBias)
    (hp : s.psc = 0) (hc : 0 < s.params.clkKHz) (hb : 0 < s.bwt.toNat) (hin : s.inputs = ws ++ rest)
    (he : Elapse (s.bwt.toNat * s.params.clkKHz) ws) :
    run (s.bwt.toNat * s.params.clkKHz) s =
      .next { s with bwt := 0#4, resp := 0#18, fsm := .resp, inputs := rest } := by
  obtain ⟨m, hm⟩ := Nat.exists_eq_add_one.2 (Nat.mul_pos hb hc)
  rw [hm] at he ⊢
  have h := run_warmup (n := m) (s := s) hf (by omega) (rstN_of_elapse hin he (Nat.le_refl _)) (by omega)
  rw [microWarmup_setBias (s := { s with bwt := 1#4, psc := 0, inputs := s.inputs.drop m }) rfl ho, afterward_next] at h
  rw [h]
  simp [State.endClock, State.respond, State.tickBwt, inputs_after_elapse hin he, hp]
  rfl

/-- The whole conversion wait. -/
theorem run_conv_all {s : State} {ws rest : List Lines} (hf : s.fsm = .conv) (hp : s.psc = 0)
    (hc : 0 < s.params.clkKHz) (hb : 0 < s.ctc.toNat) (hin : s.inputs = ws ++ rest)
    (he : Elapse (s.ctc.toNat * s.params.clkKHz) ws) :
    run (s.ctc.toNat * s.params.clkKHz) s =
      .next { s with ctc := 0#6, cfg := s.cfg &&& 0xDF#8, fsm := .rtdR, inputs := rest } := by
  obtain ⟨m, hm⟩ := Nat.exists_eq_add_one.2 (Nat.mul_pos hb hc)
  rw [hm] at he ⊢
  have h := run_conv (n := m) (s := s) hf (by omega) (rstN_of_elapse hin he (Nat.le_refl _)) (by omega)
  rw [microConv_last (s := { s with ctc := 1#6, psc := 0, inputs := s.inputs.drop m }) rfl, afterward_next] at h
  rw [h]
  simp [State.endClock, State.goto, State.tickCtc, State.setOneshot, putBit_oneshot_off,
    inputs_after_elapse hin he, hp]

end Sys2Proof.Machine
end

