-- ==== Sys2Proof/Tests/Slice0.lean ====
section
/-! SUPPORT. Tests with expected values from spec/95_test_vectors.md and the rules' own examples, and for every statement
with hypotheses a state and operands that meet them. -/

namespace Sys2Proof.Tests

open Sys2Proof.Machine Sys2Proof.Safety

/-! ### Well-formedness -/

/-- A filter value above the field is refused (R69). -/
theorem test_wf_filt : (Instr.configure false false 256 2).wf = false := by decide
/-- A wires value above the field is refused (R69). -/
theorem test_wf_wires : (Instr.configure true true 50 256).wf = false := by decide
/-- The fields' maxima are well formed, legal arguments or not (R70). -/
theorem test_wf_maxima : (Instr.configure true true 255 255).wf = true := by decide

/-! ### Decoding: words written bit by bit from R61 -/

/-- Vector 2.3, with its fields apart: OPC, RV, ZV, zeros, FILT = 60, WIRES = 4. -/
theorem test_decode_configure :
    decode (0b0001#4 ++ 0b1#1 ++ 0b0#1 ++ 0b0000000000#10 ++ 0b00111100#8 ++ 0b00000100#8) =
      .ok (.configure true false 60 4) := by decide
/-- Vector 2.4: ZV alone. -/
theorem test_decode_configure_zv : decode 0b00010100000000000011110000000100#32 = .ok (.configure false true 60 4) := by
  decide
/-- Vector 2.6. -/
theorem test_decode_setBias : decode 0b00100000000000000000000000000001#32 = .ok (.setBias true) := by decide
/-- Vector 2.8. -/
theorem test_decode_read : decode 0b00110000000000000000000000000000#32 = .ok .read := by decide
/-- The outer bits of the "zero" fields of R61: bits 25 and 16, bits 27 and 1, bits 27 and 0. -/
theorem test_decode_reserved : decode 0x12003202#32 = .error (.reservedBits 1#4) ∧
    decode 0x10013202#32 = .error (.reservedBits 1#4) ∧ decode 0x28000000#32 = .error (.reservedBits 2#4) ∧
    decode 0x20000002#32 = .error (.reservedBits 2#4) ∧ decode 0x38000000#32 = .error (.reservedBits 3#4) ∧
    decode 0x30000001#32 = .error (.reservedBits 3#4) := by decide +kernel
/-- R75's formulas on vector 2.5. -/
theorem test_encode_configure : encode (.configure true true 50 3) = 0x1C003203#32 := by decide +kernel
/-- The two names the host's queries use agree with the port (R60). -/
theorem test_fetch : step (State.reset.withFetchWord 32 0x30000000) =
    afterward (exec .read ((State.reset.withFetchWord 32 0x30000000).emit (.accept 0x30000000#32))) State.endClock ∧
    decodeTableWord 32 0x30000000 = some .read := ⟨rfl, by decide⟩

/-! ### One clock of each state -/

/-- A clock in which everything outside answers: a command word is offered, the bus acknowledges with the data `d`, and
the host takes a response. -/
def busy (w : Word) (d : Half) : Lines :=
  { Lines.quiet with cmdValid := true, cmdWord := w, cmdRef := 0x407AE00000000000#64, cmdR0 := 0x408F400000000000#64,
                     busAck := true, busRdata := d, respReady := true }

/-- A state of the sequencer, one clock a tick, with those lines. -/
def at_ (f : Fsm) (o : Op) (c : Byte) (w : Word := 0#32) (d : Half := 0#16) : State :=
  { State.reset with fsm := f, op := o, cfg := c, inputs := [busy w d] }

/-- What a step shows: `CFG`, `FSM`, and what it added to the trace. -/
def shown (s : State) : Option (Byte × Fsm × List TraceEvent) :=
  match step s with
  | .next t => some (t.cfg, t.fsm, t.trace)
  | .fault _ => none
  | .refused _ => none

/-- A field of the next state. -/
def after {α : Type} (s : State) (f : State → α) : Option α :=
  match step s with
  | .next t => some (f t)
  | .fault _ => none
  | .refused _ => none

/-- R83's example: bit 4 of `CFG` set, the defaults stored. -/
theorem test_configure : shown (at_ .idle .init 0x01#8 0x10003203#32) =
    some (0x11#8, .cfgW, [.accept 0x10003203#32]) := by decide
/-- Vector 3.23: `r0` omitted is a quarter of the new reference, 107.5. -/
theorem test_configure_calibration : after (at_ .idle .init 0x01#8 0x18003C04#32) (fun t => (t.calRref, t.calR0)) =
    some (0x407AE00000000000#64, 0x405AE00000000000#64) := by decide +kernel
/-- Vectors 4.1 and 4.3, the first clock. -/
theorem test_setBias : shown (at_ .idle .init 0x01#8 0x20000001#32) =
      some (0x01#8, .biasOnW, [.accept 0x20000001#32]) ∧
    shown (at_ .idle .init 0x81#8 0x20000000#32) = some (0x81#8, .biasOffW, [.accept 0x20000000#32]) := by decide
/-- Vector 4.5, the first clock. -/
theorem test_read : shown (at_ .idle .init 0x01#8 0x30000000#32) = some (0x01#8, .fcSet, [.accept 0x30000000#32]) := by
  decide
/-- Vectors 2.11 and 3.14: the response words of an illegal word and of a bad argument. -/
theorem test_rejected : after (at_ .idle .init 0x01#8 0x40000000#32) State.resp = some 0x20000#18 ∧
    after (at_ .idle .init 0x01#8 0x10003205#32) State.resp = some 0x08000#18 := by decide
/-- R84's example. -/
theorem test_cfgW : shown (at_ .cfgW .configure 0x11#8) = some (0x11#8, .fcSet, [.write 0x11#8]) := by decide
/-- Vector 4.16. -/
theorem test_fcSet : shown { at_ .fcSet .read 0x01#8 with flt := true } = some (0x03#8, .fcClr, [.write 0x03#8]) ∧
    after { at_ .fcSet .read 0x01#8 with flt := true } State.flt = some false := by decide
/-- Vectors 4.17, 4.18, 4.19. -/
theorem test_fcClr : shown (at_ .fcClr .read 0x03#8) = some (0x01#8, .biasOnW, [.write 0x01#8]) ∧
    shown (at_ .fcClr .configure 0x13#8) = some (0x11#8, .resp, [.write 0x11#8]) ∧
    shown (at_ .fcClr .init 0x03#8) = some (0x01#8, .idle, [.write 0x01#8]) := by decide
/-- Vector 4.20. -/
theorem test_biasOnW : shown (at_ .biasOnW .read 0x01#8) = some (0x81#8, .warmup, [.write 0x81#8, .delay 10]) ∧
    after (at_ .biasOnW .read 0x01#8) State.bwt = some 10#4 := by decide
/-- Vectors 4.21, 4.22, 4.23. -/
theorem test_warmup : after { at_ .warmup .read 0x81#8 with bwt := 10#4 } (fun t => (t.bwt, t.fsm)) =
      some (9#4, .warmup) ∧
    after { at_ .warmup .read 0x81#8 with bwt := 1#4 } (fun t => (t.bwt, t.fsm)) = some (0#4, .trigW) ∧
    after { at_ .warmup .setBias 0x81#8 with bwt := 1#4 } (fun t => (t.bwt, t.fsm)) = some (0#4, .resp) := by decide
/-- Vectors 4.24, 4.25. -/
theorem test_trigW : shown (at_ .trigW .read 0x81#8) = some (0xA1#8, .conv, [.write 0xA1#8, .delay 63]) ∧
    shown (at_ .trigW .read 0x90#8) = some (0xB0#8, .conv, [.write 0xB0#8, .delay 53]) := by decide
/-- Vectors 4.26, 4.27. -/
theorem test_conv : shown { at_ .conv .read 0xA1#8 with ctc := 2#6 } = some (0xA1#8, .conv, []) ∧
    shown { at_ .conv .read 0xA1#8 with ctc := 1#6 } = some (0x81#8, .rtdR, []) := by decide
/-- Vector 4.28. -/
theorem test_rtdR : shown (at_ .rtdR .read 0x81#8 0#32 0x4001#16) = some (0x81#8, .biasOffW, [.read 0x4001#16]) ∧
    after (at_ .rtdR .read 0x81#8 0#32 0x4001#16) (fun t => (t.raw16, t.flt)) = some (0x4001#16, true) := by decide
/-- Vectors 4.29, 4.30, and R92's corner 0xFFFE. -/
theorem test_biasOffW : after { at_ .biasOffW .read 0x81#8 with raw16 := 0x4001#16 } State.resp = some 0x10000#18 ∧
    after { at_ .biasOffW .read 0x81#8 with raw16 := 0x4000#16 } State.resp = some 0x02000#18 ∧
    after { at_ .biasOffW .read 0x81#8 with raw16 := 0xFFFE#16 } State.resp = some 0x07FFF#18 := by decide
/-- Vector 4.32. -/
theorem test_resp : shown { at_ .resp .read 0x01#8 with resp := 0x02000#18, raw16 := 0x4000#16 } =
    some (0x01#8, .idle, [.resp 0#3 0x2000#15]) := by decide
/-- Vector 4.33: a command offered in `S_CONV` is not seen, and 4.34: an idle block hears no acknowledge. -/
theorem test_ignored : after { at_ .conv .read 0xA1#8 0x30000000#32 with ctc := 40#6 } (fun t => (t.fsm, t.trace)) =
      some (.conv, []) ∧
    shown { at_ .idle .init 0x01#8 with inputs := [{ Lines.quiet with busAck := true, respReady := true }] } =
      some (0x01#8, .idle, []) := by decide
/-- R33, R190: reset in the middle of a conversion, with `WIRE3_RESET = 1`. -/
theorem test_reset : shown { at_ .conv .read 0xA1#8 with
    ctc := 40#6, params := { clkKHz := 4, wire3Reset := true }, inputs := [{ Lines.quiet with rstN := false }] } =
      some (0x11#8, .cfgW, []) := by decide
/-- R29: with four clocks a tick, the fourth clock after the load is the tick. -/
theorem test_prescaler :
    after { at_ .warmup .read 0x81#8 with bwt := 10#4, params := ⟨4, false⟩, psc := 2 } (fun t => (t.bwt, t.psc)) =
      some (10#4, 3) ∧
    after { at_ .warmup .read 0x81#8 with bwt := 10#4, params := ⟨4, false⟩, psc := 3 } (fun t => (t.bwt, t.psc)) =
      some (9#4, 0) := by decide
/-- R43: the byte on `bus_wdata` during the request of vector 4.24. -/
theorem test_port : (at_ .trigW .read 0x81#8).outputs.bus = some (.write 0x00#8 0xA1#8) := by decide
/-- R72, R73: the codes. -/
theorem test_codes : [Fsm.idle, .cfgW, .fcSet, .fcClr, .biasOnW, .warmup, .trigW, .conv, .rtdR, .biasOffW, .resp].map
      (fun f => f.code.toNat) = [0, 1, 2, 3, 4, 5, 6, 7, 8, 9, 10] ∧
    [Op.init, .configure, .setBias, .read].map (fun o => o.code.toNat) = [0, 1, 2, 3] := by decide

/-! ### Pseudo-commands and the solver -/

/-- R76 and R75: `CONFIGURE_DEFAULT` for both values of `WIRE3_RESET`, and vector 2.3 as a line. -/
theorem test_asm : encode (configureDefault ⟨1, false⟩).instr = 0x10003202#32 ∧
    encode (configureDefault ⟨1, true⟩).instr = 0x10003203#32 ∧
    ((AsmLine.configure 4 60 (some 0x407AE00000000000#64) none).offeredOn .quiet).cmdWord = 0x18003C04#32 := by decide
/-- Program P1's host side: the code 0x2000 is 0 degrees. -/
theorem test_readTempSimple : readTempSimple 0x02000#18 = some (.fin false 0 (-1074)) ∧
    readTempSimple 0x10000#18 = none := by decide +kernel
/-- Vectors 5.1 and 5.3: -256.0 and 767.96875 by their patterns. -/
theorem test_simpleTemperature : (Solver.simpleTemperature 0#15).toBits 0 = 0xC070000000000000#64 ∧
    (Solver.simpleTemperature 0x7FFF#15).toBits 0 = 0x4087FFC000000000#64 := by decide +kernel
/-- Vectors 5.7 (zero residual) and 5.8 (period two, a tie), by their hexadecimal literals. -/
theorem test_preciseTemperature :
    Solver.preciseTemperature 0x4000#15 Config.rrefDefault Config.r0Default =
      .converged (F64.ofBits 0x4070E41391FAB7B8#64) ∧
    Solver.preciseTemperature 0x231E#15 Config.rrefDefault Config.r0Default =
      .converged (F64.ofBits 0x403904005A355653#64) := by decide +kernel
/-- The f of vector 5.14. -/
def cubic (x : F64) : F64 := (((x.mul x).mul x).sub ((F64.ofNat 2).mul x)).add (F64.ofNat 2)
/-- The derivative of vector 5.14. -/
def cubicDeriv (x : F64) : F64 := (((F64.ofNat 3).mul x).mul x).sub (F64.ofNat 2)

/-- Vector 5.14. -/
theorem test_newton : Solver.newton cubic cubicDeriv (F64.ofNat 0) (F64.ofNat 0) = .converged (F64.ofNat 1) := by
  decide +kernel

/-! ### Witnesses: states and operands that meet the hypotheses of the statements -/

/-- `DecodeOfEncode`, at the fields' maxima and at 0. -/
theorem witness_DecodeOfEncode : (Instr.configure true true 255 255).wf = true ∧
    (Instr.configure false false 0 0).wf = true ∧ (Instr.setBias true).wf = true ∧ Instr.read.wf = true := by decide

/-- `EncodeOfDecode`, and the left sides of `CommandsByMatchAndMask`. -/
theorem witness_EncodeOfDecode : decode 0x1C00FFFF#32 = .ok (.configure true true 255 255) ∧
    decode 0x10000000#32 = .ok (.configure false false 0 0) ∧ decode 0x20000000#32 = .ok (.setBias false) ∧
    decode 0x30000000#32 = .ok .read := by decide +kernel

/-- `StepRunsTheDecodedCommand`. -/
theorem witness_StepRunsTheDecodedCommand : (at_ .idle .init 0x01#8 0x30000000#32).fsm = .idle ∧
    (at_ .idle .init 0x01#8 0x30000000#32).lines.rstN = true ∧
    (at_ .idle .init 0x01#8 0x30000000#32).lines.cmdValid = true ∧
    decode (at_ .idle .init 0x01#8 0x30000000#32).lines.cmdWord = .ok .read := by decide

/-- `IllegalWordIsReported`: an illegal word of each kind, the nearest legal ones, and a bad argument. -/
theorem witness_IllegalWordIsReported : (∀ w, (at_ .idle .init 0x01#8 w).fsm = .idle ∧
      (at_ .idle .init 0x01#8 w).lines.rstN = true ∧ (at_ .idle .init 0x01#8 w).lines.cmdValid = true ∧
      (at_ .idle .init 0x01#8 w).lines.cmdWord = w) ∧
    IllegalWord 0x00000000#32 ∧ IllegalWord 0x40000000#32 ∧ IllegalWord 0x12003202#32 ∧ IllegalWord 0x20000002#32 ∧
    IllegalWord 0x30000001#32 ∧ ¬ IllegalWord 0x30000000#32 ∧ ¬ IllegalWord 0x10003202#32 ∧
    decode 0x10003205#32 = .ok (.configure false false 50 5) ∧ ¬ ValidArguments 50 5 := by
  refine ⟨fun w => ⟨rfl, rfl, rfl, rfl⟩, ?_, ?_, ?_, ?_, ?_, ?_, ?_, ?_, ?_⟩ <;>
    (try unfold IllegalWord) <;> (try unfold ValidArguments) <;> decide +kernel

/-- `ConfigureCompletes` and `BadArgumentIsReported`, at the ends of each range. -/
theorem witness_ConfigureCompletes : (at_ .idle .init 0x01#8).fsm = .idle ∧
    ValidArguments 50 2 ∧ ValidArguments 60 4 ∧ ValidArguments 50 3 ∧
    ¬ ValidArguments 49 3 ∧ ¬ ValidArguments 51 3 ∧ ¬ ValidArguments 61 3 ∧ ¬ ValidArguments 50 1 ∧
    ¬ ValidArguments 60 5 := by
  unfold ValidArguments
  decide

/-- `SetBiasCompletes`, `ReadCompletes`: an idle state with the bias on. -/
theorem witness_SetBiasCompletes : (at_ .idle .init 0x81#8).fsm = .idle := rfl

/-- `DispatchFrame`: a next state that differs in `CFG`, and one that differs in `RESP`. -/
theorem witness_DispatchFrame :
    (∃ t, exec (.configure false false 60 3) (at_ .idle .init 0x01#8) = .next t ∧ t.cfg ≠ (at_ .idle .init 0x01#8).cfg) ∧
    (∃ t, exec (.configure false false 60 5) (at_ .idle .init 0x01#8) = .next t ∧
      t.resp ≠ (at_ .idle .init 0x01#8).resp) := ⟨⟨_, rfl, by decide⟩, ⟨_, rfl, by decide⟩⟩

/-- `BusyBlockAcceptsNothing`, `NoReconfigurationInFlight`: a busy state, with its step. -/
theorem witness_BusyBlockAcceptsNothing : (at_ .conv .read 0xA1#8).fsm ≠ .idle ∧
    (at_ .fcSet .read 0x01#8).fsm ≠ .idle ∧ (at_ .fcSet .read 0x01#8).lines.rstN = true ∧
    ∃ t, step (at_ .fcSet .read 0x01#8) = .next t := ⟨by decide, by decide, rfl, _, rfl⟩

/-- The steps at an acknowledge, `ConfigurationFlushStep` to `BiasDisableStep`: every bus state with every operation. -/
theorem witness_bus_steps : ∀ o : Op, ∀ c : Byte, ∀ f ∈ [Fsm.cfgW, .fcSet, .fcClr, .biasOnW, .trigW, .rtdR, .biasOffW],
    (at_ f o c).lines.rstN = true ∧ (at_ f o c).fsm = f ∧ (at_ f o c).lines.busAck = true ∧ (at_ f o c).op = o :=
  fun _ _ _ _ => ⟨rfl, rfl, rfl, rfl⟩

/-- `TriggerStep`: both filters. -/
theorem witness_TriggerStep : (at_ .trigW .read 0x81#8).cfg.getLsbD 0 = true ∧
    (at_ .trigW .read 0x80#8).cfg.getLsbD 0 = false := by decide

/-- `BiasDisableStep`: both readings. -/
theorem witness_BiasDisableStep : ({ at_ .biasOffW .read 0x81#8 with raw16 := 0x0001#16 } : State).raw16.getLsbD 0 = true ∧
    ({ at_ .biasOffW .read 0x81#8 with raw16 := 0xFFFE#16 } : State).raw16.getLsbD 0 = false := by decide

/-- `WarmupTickStep`: a tick of the first kind, and the last tick of each operation, with one and with four clocks a
tick. -/
theorem witness_WarmupTickStep : ∀ o ∈ [Op.read, .setBias], ∀ b ∈ [10#4, 1#4], ∀ k ∈ [1, 4],
    ({ at_ .warmup o 0x81#8 with bwt := b, params := ⟨k, false⟩, psc := k - 1 } : State).fsm = .warmup ∧
    ({ at_ .warmup o 0x81#8 with bwt := b, params := ⟨k, false⟩, psc := k - 1 } : State).lines.rstN = true ∧
    k ≤ k - 1 + 1 ∧ b ≠ 0#4 := by decide

/-- `ConversionTickStep`: at both ends of the count. -/
theorem witness_ConversionTickStep : ∀ c ∈ [63#6, 53#6, 2#6, 1#6],
    ({ at_ .conv .read 0xA1#8 with ctc := c } : State).fsm = .conv ∧
    ({ at_ .conv .read 0xA1#8 with ctc := c } : State).lines.rstN = true ∧
    ({ at_ .conv .read 0xA1#8 with ctc := c } : State).params.clkKHz ≤ 0 + 1 ∧ c ≠ 0#6 := by decide

/-- `TakeStep`: with no reset after it. -/
theorem witness_TakeStep : (at_ .resp .read 0x01#8).lines.rstN = true ∧ (at_ .resp .read 0x01#8).fsm = .resp ∧
    (at_ .resp .read 0x01#8).lines.respReady = true ∧
    (∃ t, step (at_ .resp .read 0x01#8) = .next t ∧ t.lines.rstN = true) := ⟨rfl, rfl, rfl, _, rfl, rfl⟩

/-- `UnheardLinesChangeNothing`, `StatusOutputs`. -/
theorem witness_UnheardLinesChangeNothing : (busy 0x30000000#32 0xFFFF#16).rstN = true ∧
    (at_ .conv .read 0xA1#8).lines.rstN = true := by decide

/-- `ResetGivesEveryElement`, `ResetOverridesEverything`: reset in the middle of a conversion. -/
theorem witness_ResetGivesEveryElement :
    ({ at_ .conv .read 0xA1#8 with inputs := [{ busy 0x30000000#32 0#16 with rstN := false }] } : State).lines.rstN =
      false := rfl

/-! ### States that have the invariant -/

/-- An idle state in which bias is held on, for the lines `ls`. -/
def idleState (ls : List Lines) : State :=
  { State.reset with fsm := .idle, cfg := 0x81#8, lastw := 0x81#8, lastwValid := true, inputs := ls }

/-- It has the invariant, whatever the lines. -/
theorem witness_inv_idle (ls : List Lines) : Inv (idleState ls) where
  clk := Nat.zero_lt_one
  op := rfl
  reserved := show 0x81#8 &&& 0x4C#8 = 0#8 by decide
  fclr := show (0x81#8).getLsbD 1 = false by decide
  oneshot := show (0x81#8).getLsbD 5 = false by decide
  biasOn := nofun
  biasOff := nofun
  bwtRuns := nofun
  bwtRests := fun _ => rfl
  ctcRuns := nofun
  ctcRests := fun _ => rfl
  pscRuns := Nat.zero_lt_one
  pscRests := fun _ _ => rfl
  rawRests := fun _ _ => rfl
  rawOfRead := fun _ => rfl
  respHolds := nofun
  respRests := fun _ => rfl
  fltCleared := nofun
  fltCaptured := nofun
  shadow := ⟨fun _ _ => ⟨rfl, rfl⟩, nofun, fun _ => show (0x81#8).getLsbD 5 = false by decide⟩

/-- A state in the middle of a conversion at 50 Hz, for the lines `ls`. -/
def convState (ls : List Lines) : State :=
  { State.reset with fsm := .conv, op := .read, cfg := 0xA1#8, lastw := 0xA1#8, lastwValid := true, ctc := 63#6,
                     params := ⟨4, false⟩, psc := 3, inputs := ls }

/-- It has the invariant: a state in which the strobes, the timer and the prescaler are not at rest. -/
theorem witness_inv_conv (ls : List Lines) : Inv (convState ls) where
  clk := show 0 < 4 by decide
  op := rfl
  reserved := show 0xA1#8 &&& 0x4C#8 = 0#8 by decide
  fclr := show (0xA1#8).getLsbD 1 = false by decide
  oneshot := show (0xA1#8).getLsbD 5 = true by decide
  biasOn := fun _ => show (0xA1#8).getLsbD 7 = true by decide
  biasOff := nofun
  bwtRuns := nofun
  bwtRests := fun _ => rfl
  ctcRuns := fun _ => by
    rw [convTicks_eq]
    exact (by decide : 1 ≤ (63#6).toNat ∧ (63#6).toNat ≤ if (0xA1#8 : Byte).getLsbD 0 then 63 else 53)
  ctcRests := fun h => absurd rfl h
  pscRuns := show 3 < 4 by decide
  pscRests := fun _ h => absurd rfl h
  rawRests := fun _ _ => rfl
  rawOfRead := fun h => absurd rfl h
  respHolds := nofun
  respRests := fun _ => rfl
  fltCleared := fun _ _ => rfl
  fltCaptured := fun _ h => by rcases h with h | h <;> cases h
  shadow := ⟨fun _ _ => ⟨rfl, rfl⟩, fun _ _ => ⟨rfl, show (0xA1#8).getLsbD 5 = true by decide⟩,
    fun h => absurd rfl h⟩

/-- `StepKeepsTheInvariant`, `InvariantStatesNeverStop`, `OneResponsePerCommand`: a state with the invariant, reset
released, and its next state. -/
theorem witness_StepKeepsTheInvariant : Inv (idleState [busy 0x30000000#32 0#16]) ∧
    (idleState [busy 0x30000000#32 0#16]).lines.rstN = true ∧
    ∃ t, step (idleState [busy 0x30000000#32 0#16]) = .next t ∧ t.fsm = .fcSet := ⟨witness_inv_idle _, rfl, _, rfl, rfl⟩

/-- `StaysExactlyWhileWaiting`, `StepsFollowTheTransitionTable`: a state of each kind that waits, one that does not, and
one under reset, each with the invariant. -/
theorem witness_StaysExactlyWhileWaiting : Waits (idleState [.quiet]) ∧ (idleState [.quiet]).lines.rstN = true ∧
    Waits { convState [] with psc := 2 } ∧ Waits { at_ .fcSet .read 0x01#8 with inputs := [] } ∧
    Waits { at_ .resp .read 0x01#8 with inputs := [] } ∧
    ¬ Waits (idleState [busy 0#32 0#16]) ∧ ¬ Waits (convState []) ∧ Inv (convState []) ∧
    (∃ t, step (convState []) = .next t ∧ t.ctc ≠ (convState []).ctc) ∧
    (convState [{ Lines.quiet with rstN := false }]).lines.rstN = false :=
  ⟨rfl, rfl, show 2 + 1 < 4 by decide, rfl, rfl, show ¬ true = false by decide, show ¬ 3 + 1 < 4 by decide,
    witness_inv_conv _, ⟨_, rfl, by decide⟩, rfl⟩

/-- `ResetMeetsTheInvariant`. -/
theorem witness_ResetMeetsTheInvariant : 0 < Config.Params.default.clkKHz := Nat.zero_lt_one

/-! ### Reachable states -/

/-- The acknowledge of a write. -/
def ack : Lines := { Lines.quiet with busAck := true }
/-- A response taken. -/
def take : Lines := { Lines.quiet with respReady := true }
/-- A command offered. -/
def offer (w : Word) : Lines := { Lines.quiet with cmdValid := true, cmdWord := w }

/-- `IdleIsCanonical`, `ShadowInvariantOfRuns`, `StrobesTimersAndResponseRest`, the first clause of `BytesOnTheBus`: the
idle state after the initialisation sequence. -/
theorem witness_reachable_idle : ∃ s, Reachable s ∧ s.fsm = .idle ∧ .write 0x03#8 ∈ s.trace ∧ s.lastwValid = true :=
  ⟨_, ⟨.default, [ack, ack, ack], 3, Nat.zero_lt_one, rfl⟩, rfl, by decide, rfl⟩

/-- `StrobesTimersAndResponseRest`: reachable states in which a strobe, a timer or the response is not at rest. -/
theorem witness_reachable_busy :
    (∃ s, Reachable s ∧ s.fsm = .fcClr ∧ s.cfg.getLsbD 1 = true) ∧
    (∃ s, Reachable s ∧ s.fsm = .warmup ∧ s.bwt = 10#4) ∧
    (∃ s, Reachable s ∧ s.fsm = .conv ∧ s.cfg.getLsbD 5 = true ∧ s.ctc = 63#6) ∧
    (∃ s, Reachable s ∧ s.fsm = .resp ∧ s.resp = 0x20000#18) :=
  ⟨⟨_, ⟨.default, [ack, ack], 2, Nat.zero_lt_one, rfl⟩, rfl, rfl⟩,
    ⟨_, ⟨.default, [ack, ack, ack, offer 0x20000001#32, ack], 5, Nat.zero_lt_one, rfl⟩, rfl, rfl⟩,
    ⟨_, ⟨.default, [ack, ack, ack, offer 0x30000000#32, ack, ack, ack] ++ List.replicate 10 .quiet ++ [ack], 18,
      Nat.zero_lt_one, rfl⟩, rfl, rfl, rfl⟩,
    ⟨_, ⟨.default, [ack, ack, ack, offer 0x40000000#32], 4, Nat.zero_lt_one, rfl⟩, rfl, rfl⟩⟩

/-- `ResponsesOfRuns`: a run with a response that is no success. -/
theorem witness_ResponsesOfRuns : ∃ s, Reachable s ∧ .resp 4#3 0#15 ∈ s.trace :=
  ⟨_, ⟨.default, [ack, ack, ack, offer 0x40000000#32, take], 5, Nat.zero_lt_one, rfl⟩, by decide⟩

/-! ### What only some steps may change, and the ports -/

/-- `FaultLatchChanges`: each branch, with its step. -/
theorem witness_FaultLatchChanges : (∃ t, step (at_ .rtdR .read 0x81#8 0#32 0x0001#16) = .next t ∧ t.flt = true) ∧
    (∃ t, step { at_ .fcSet .read 0x01#8 with flt := true } = .next t ∧ t.flt = false) ∧
    (∃ t, step { at_ .idle .init 0x01#8 0x20000000#32 with flt := true } = .next t ∧ t.flt = true) :=
  ⟨⟨_, rfl, rfl⟩, ⟨_, rfl, rfl⟩, ⟨_, rfl, rfl⟩⟩

/-- `OnlyConfigureReconfigures`: a step that changes the wire mode. -/
theorem witness_OnlyConfigureReconfigures : (at_ .idle .init 0x01#8 0x10003203#32).lines.rstN = true ∧
    ∃ t, step (at_ .idle .init 0x01#8 0x10003203#32) = .next t ∧ t.cfg.getLsbD 4 ≠ (0x01#8).getLsbD 4 :=
  ⟨rfl, _, rfl, by decide⟩

/-- `OneTransactionAtATime`, `ParametersStayAndLinesAdvance`: a step with two trace events. -/
theorem witness_OneTransactionAtATime : ∃ t, step (at_ .biasOnW .read 0x01#8) = .next t ∧
    emitted (at_ .biasOnW .read 0x01#8) t = [.write 0x81#8, .delay 10] := ⟨_, rfl, by decide⟩

/-- `PortDrivesTheWrittenByte`: a request that is acknowledged and one that is held. -/
theorem witness_PortDrivesTheWrittenByte : (at_ .biasOffW .read 0x81#8).lines.rstN = true ∧
    (at_ .biasOffW .read 0x81#8).outputs.bus = some (.write 0x00#8 0x01#8) ∧
    (at_ .biasOffW .read 0x81#8).lines.busAck = true ∧
    ({ at_ .biasOffW .read 0x81#8 with inputs := [] } : State).outputs.bus = some (.write 0x00#8 0x01#8) ∧
    ({ at_ .biasOffW .read 0x81#8 with inputs := [] } : State).lines.busAck = false := by decide

/-- `OnlyTheRawRegisterIsRead`. -/
theorem witness_OnlyTheRawRegisterIsRead : (at_ .rtdR .read 0x81#8).outputs.bus = some (.read 0x01#8) ∧
    (at_ .rtdR .read 0x81#8).lines.busAck = true := by decide

/-! ### Whole commands -/

/-- A state just after a timer was loaded, for `ws`. -/
def loaded (f : Fsm) (o : Op) (b : BitVec 4) (c : BitVec 6) (k : Nat) (ws : List Lines) : State :=
  { at_ f o 0xA0#8 with bwt := b, ctc := c, params := ⟨k, false⟩, inputs := ws }

/-- `WarmupTakesTenTicks`, with four clocks a tick, for both operations. -/
theorem witness_WarmupTakesTenTicks : ∀ o ∈ [Op.read, .setBias], ∃ (s : State) (ws rest : List Lines),
    0 < s.params.clkKHz ∧ s.fsm = .warmup ∧ s.bwt = 10#4 ∧ s.psc = 0 ∧ s.inputs = ws ++ rest ∧
    Elapse (10 * s.params.clkKHz) ws ∧ s.op = o :=
  fun o _ => ⟨loaded .warmup o 10#4 0#6 4 (List.replicate 40 .quiet ++ []), List.replicate 40 .quiet, [], Nat.zero_lt_succ 3,
    rfl, rfl, rfl, rfl, ⟨rfl, by decide⟩, rfl⟩

/-- `ConversionTakesItsTicks`, at 60 Hz with two clocks a tick, and for one tick. -/
theorem witness_ConversionTakesItsTicks : ∀ c ∈ [53#6, 1#6], ∃ (s : State) (ws rest : List Lines),
    0 < s.params.clkKHz ∧ s.fsm = .conv ∧ s.ctc = c ∧ s.ctc ≠ 0#6 ∧ s.psc = 0 ∧ s.inputs = ws ++ rest ∧
    Elapse (s.ctc.toNat * s.params.clkKHz) ws := by
  intro c hc
  refine ⟨loaded .conv .read 0#4 c 2 (List.replicate (c.toNat * 2) .quiet ++ []), List.replicate (c.toNat * 2) .quiet,
    [], Nat.zero_lt_succ 1, rfl, rfl, ?_, rfl, rfl, List.length_replicate, fun l h => ?_⟩
  · rcases List.mem_cons.mp hc with rfl | h
    · exact show 53#6 ≠ 0#6 by decide
    · rw [List.mem_singleton.mp h]; exact show 1#6 ≠ 0#6 by decide
  · rw [List.eq_of_mem_replicate h]; rfl

/-- The collaborator lets `n` clocks pass and acknowledges with the data `d`. -/
theorem witness_BusAnswer (n : Nat) (d : Half) : BusAnswer (List.replicate n .quiet) { ack with busRdata := d } := by
  refine ⟨fun l h => ?_, rfl, rfl⟩
  rw [List.eq_of_mem_replicate h]
  exact ⟨rfl, rfl⟩

/-- The host takes the response after `n` clocks. -/
theorem witness_HostTakes (n : Nat) : HostTakes (List.replicate n .quiet) take := by
  refine ⟨fun l h => ?_, rfl, rfl⟩
  rw [List.eq_of_mem_replicate h]
  exact ⟨rfl, rfl⟩

/-- `n` clocks pass. -/
theorem witness_Elapse (n : Nat) : Elapse n (List.replicate n .quiet) := by
  refine ⟨List.length_replicate, fun l h => ?_⟩
  rw [List.eq_of_mem_replicate h]
  rfl

/-- `ReadNetEffect`: all its hypotheses together, for a reading `d`, with three clocks to each acknowledge. -/
theorem witness_ReadNetEffect (d : Half) : ∃ s c a w t₁ t₂ k h, Inv s ∧ s.fsm = .idle ∧ Offers c 0x30000000#32 ∧
    BusAnswer w a ∧ a.busRdata = d ∧ Elapse (10 * s.params.clkKHz) t₁ ∧
    Elapse ((if s.cfg.getLsbD 0 then 63 else 53) * s.params.clkKHz) t₂ ∧ HostTakes h k ∧
    s.inputs = [c] ++ transact w a ++ transact w a ++ transact w a ++ t₁ ++ transact w a ++ t₂ ++
      transact w a ++ transact w a ++ transact h k ++ [] :=
  ⟨idleState _, offer 0x30000000#32, _, _, List.replicate 10 .quiet, List.replicate 63 .quiet, take, _,
    witness_inv_idle _, rfl, ⟨rfl, rfl, rfl⟩, witness_BusAnswer 3 d, rfl, witness_Elapse 10,
    (by decide : (if (0x81#8 : Byte).getLsbD 0 then 63 else 53) * 1 = 63) ▸ witness_Elapse 63, witness_HostTakes 2, rfl⟩

/-- `ConfigureNetEffect`. -/
theorem witness_ConfigureNetEffect : ∃ s c a w k h, Inv s ∧ s.fsm = .idle ∧
    Offers c (encode (.configure true false 60 3)) ∧ ValidArguments 60 3 ∧ BusAnswer w a ∧ HostTakes h k ∧
    s.inputs = [c] ++ transact w a ++ transact w a ++ transact w a ++ transact h k ++ [] :=
  ⟨idleState _, offer (encode (.configure true false 60 3)), _, _, take, _, witness_inv_idle _, rfl, ⟨rfl, rfl, rfl⟩,
    by unfold ValidArguments; decide, witness_BusAnswer 3 0#16, witness_HostTakes 0, rfl⟩

/-- `SetBiasNetEffect`: both clauses. -/
theorem witness_SetBiasNetEffect :
    (∃ s c a w t k h, Inv s ∧ s.fsm = .idle ∧ BusAnswer w a ∧ HostTakes h k ∧ Offers c 0x20000001#32 ∧
      Elapse (10 * s.params.clkKHz) t ∧ s.inputs = [c] ++ transact w a ++ t ++ transact h k ++ []) ∧
    (∃ s c a w k h, Inv s ∧ s.fsm = .idle ∧ BusAnswer w a ∧ HostTakes h k ∧ Offers c 0x20000000#32 ∧
      s.inputs = [c] ++ transact w a ++ transact h k ++ []) :=
  ⟨⟨idleState _, offer 0x20000001#32, _, _, List.replicate 10 .quiet, take, _, witness_inv_idle _, rfl,
      witness_BusAnswer 1 0#16, witness_HostTakes 1, ⟨rfl, rfl, rfl⟩, witness_Elapse 10, rfl⟩,
    ⟨idleState _, offer 0x20000000#32, _, _, take, _, witness_inv_idle _, rfl,
      witness_BusAnswer 1 0#16, witness_HostTakes 1, ⟨rfl, rfl, rfl⟩, rfl⟩⟩

/-- `RejectedCommandNetEffect`: an illegal word, and a bad argument. -/
theorem witness_RejectedCommandNetEffect : ∀ w ∈ [0x10013205#32, 0x10003205#32], ∃ s c k h, Inv s ∧ s.fsm = .idle ∧
    c.rstN = true ∧ c.cmdValid = true ∧ c.cmdWord = w ∧ HostTakes h k ∧ s.inputs = [c] ++ transact h k ++ [] :=
  fun w _ => ⟨idleState _, offer w, take, _, witness_inv_idle _, rfl, rfl, rfl, rfl, witness_HostTakes 2, rfl⟩

/-- `InitialisationSequence` for both values of the parameter needs three answers only. -/
theorem witness_InitialisationSequence : ∃ w a, BusAnswer w a ∧ w.length = 2 := ⟨_, _, witness_BusAnswer 2 0#16, rfl⟩

/-! ### Arithmetic -/

/-- `QuarterOfTheReference`: the least and the greatest normal exponent it covers, an infinity, a NaN; the expected
quarters are 2^-1022 and 107.5. -/
theorem witness_QuarterOfTheReference :
    (3 ≤ ((0x0030000000000000#64).extractLsb' 52 11).toNat ∧
      ((0x7FEFFFFFFFFFFFFF#64).extractLsb' 52 11).toNat < 2047) ∧
    ((0xFFF0000000000000#64).extractLsb' 52 11 = 2047#11 ∧ (0xFFF0000000000000#64).extractLsb' 0 52 = 0#52) ∧
    ((0x7FF8000000000000#64).extractLsb' 52 11 = 2047#11 ∧ (0x7FF8000000000000#64).extractLsb' 0 52 ≠ 0#52) ∧
    fdiv64 0x0030000000000000#64 Config.four = 0x0010000000000000#64 ∧
    fdiv64 0x407AE00000000000#64 Config.four = 0x405AE00000000000#64 := by decide +kernel

/-- `OscillationEndsAtTheCloser`: the cycle of vector 5.14 meets every hypothesis. -/
theorem witness_OscillationEndsAtTheCloser :
    ((cubic (F64.ofNat 0)).sub (F64.ofNat 0)).eq (.fin false 0 (-1074)) = false ∧
    ((cubic (F64.ofNat 1)).sub (F64.ofNat 0)).eq (.fin false 0 (-1074)) = false ∧
    (F64.ofNat 0).sub (((cubic (F64.ofNat 0)).sub (F64.ofNat 0)).div (cubicDeriv (F64.ofNat 0))) = F64.ofNat 1 ∧
    (F64.ofNat 1).sub (((cubic (F64.ofNat 1)).sub (F64.ofNat 0)).div (cubicDeriv (F64.ofNat 1))) = F64.ofNat 0 ∧
    (F64.ofNat 0).eq (F64.ofNat 1) = false ∧ (F64.ofNat 1).eq (F64.ofNat 0) = false ∧
    (F64.ofNat 0).eq (F64.ofNat 0) = true := by decide +kernel

/-- `SolverResultIsJustified`: a solver call that converges. -/
theorem witness_SolverResultIsJustified :
    ∃ r, Solver.newton cubic cubicDeriv (F64.ofNat 0) (F64.ofNat 0) = .converged r := ⟨_, test_newton⟩

end Sys2Proof.Tests
end

/-! ### Scope

The parameters and the lines are no elements of the block (R6, R32): no way a step can go changes them, and
only the end of the clock takes the lines of this clock away. -/

namespace Sys2Proof.Machine

/-- The frame of every step case, reset included. The end of a READ branches on the fault bit and needs the split. -/
theorem StepCase.params_inputs {s u : State} (h : StepCase s u) : u.params = s.params ∧ u.inputs = s.inputs := by
  cases h with
  | biasOffRead => cases faultBit s.raw16 <;> exact ⟨rfl, rfl⟩
  | _ => exact ⟨rfl, rfl⟩

/-- Settles O42: the step case keeps parameters and lines, and the end of the clock drops the first entry. -/
theorem parametersStayAndLinesAdvance : Obligations.ParametersStayAndLinesAdvance := by
  intro s t h
  obtain ⟨u, hu, rfl⟩ := step_cases h
  obtain ⟨hparams, hinputs⟩ := hu.params_inputs
  exact ⟨hparams, congrArg List.tail hinputs⟩

end Sys2Proof.Machine

/-! ### Fields after the composed updates

`flush`, `raise` and `reject` are compositions, and so is each micro-operation. Written as the named updates they are
made of, every field of their result is given by the `@[simp]` laws of the state. -/

namespace Sys2Proof.Machine

@[simp] theorem State.flush_eq_busWrite (s : State) : s.flush = s.busWrite s.cfg := rfl

@[simp] theorem State.reject_eq_respond (s : State) (st : Status) :
    s.reject st = (s.setOp .init).respond st 0#15 := rfl

@[simp] theorem State.raise_eq_respond (s : State) (st : Status) : s.raise st = s.respond st 0#15 := rfl

/-- The end of a READ is one response, whichever way its fault bit decides (R92). -/
@[simp] theorem cond_respond (b : Bool) (s : State) (st st' : Status) (code code' : RawCode) :
    (bif b then s.respond st code else s.respond st' code') =
      s.respond (bif b then st else st') (bif b then code else code') := by
  cases b <;> rfl

@[simp] theorem microCfgW_eq (s : State) : microCfgW s = s.flush.goto .fcSet := rfl

@[simp] theorem microFcSet_eq (s : State) : microFcSet s = (s.setFclr true).flush.clearFlt.goto .fcClr := rfl

@[simp] theorem microBiasOnW_eq (s : State) : microBiasOnW s = (s.setBias true).flush.loadWarmup.goto .warmup := rfl

@[simp] theorem microTrigW_eq (s : State) : microTrigW s = (s.setOneshot true).flush.loadConv.goto .conv := rfl

@[simp] theorem microRtdR_eq (s : State) (d : Half) :
    microRtdR d s = ((s.busRead16 d).captureFlt d).goto .biasOffW := rfl

@[simp] theorem microResp_eq (s : State) : microResp s = s.takeResponse := rfl

section
variable (s : State) (rv zv : Bool) (filt wires : Nat)

@[simp] theorem State.beginConfigure_cfg : (s.beginConfigure rv zv filt wires).cfg =
    putBit Config.bitWire3 (newWire3 wires) (putBit Config.bitF50 (newF50 filt) s.cfg) := rfl
@[simp] theorem State.beginConfigure_flt : (s.beginConfigure rv zv filt wires).flt = s.flt := rfl
@[simp] theorem State.beginConfigure_fsm : (s.beginConfigure rv zv filt wires).fsm = .cfgW := rfl
@[simp] theorem State.beginConfigure_op : (s.beginConfigure rv zv filt wires).op = .configure := rfl
@[simp] theorem State.beginConfigure_bwt : (s.beginConfigure rv zv filt wires).bwt = s.bwt := rfl
@[simp] theorem State.beginConfigure_ctc : (s.beginConfigure rv zv filt wires).ctc = s.ctc := rfl
@[simp] theorem State.beginConfigure_raw16 : (s.beginConfigure rv zv filt wires).raw16 = s.raw16 := rfl
@[simp] theorem State.beginConfigure_resp : (s.beginConfigure rv zv filt wires).resp = s.resp := rfl
@[simp] theorem State.beginConfigure_psc : (s.beginConfigure rv zv filt wires).psc = s.psc := rfl
@[simp] theorem State.beginConfigure_params : (s.beginConfigure rv zv filt wires).params = s.params := rfl

end

end Sys2Proof.Machine

/-! ### Bits of the configuration byte -/

namespace Sys2Proof.Machine

theorem getElem_putBit (i : Nat) (v : Bool) (b : Byte) (j : Nat) (hj : j < 8) :
    (putBit i v b)[j] = if i = j then v else b[j] := by
  rw [← BitVec.getLsbD_eq_getElem, ← BitVec.getLsbD_eq_getElem]
  split
  · next hij => exact hij ▸ getLsbD_putBit_self (hij ▸ hj) v b
  · next hij => exact getLsbD_putBit_of_ne hij v b

section
variable (v : Bool) (b : Byte) (j : Nat) (hj : j < 8)

@[simp] theorem getElem_putBit_bias : (putBit Config.bitBias v b)[j] = if j = 7 then v else b[j] := by
  simp [getElem_putBit, Config.bitBias, eq_comm]
@[simp] theorem getElem_putBit_oneshot : (putBit Config.bitOneshot v b)[j] = if j = 5 then v else b[j] := by
  simp [getElem_putBit, Config.bitOneshot, eq_comm]
@[simp] theorem getElem_putBit_wire3 : (putBit Config.bitWire3 v b)[j] = if j = 4 then v else b[j] := by
  simp [getElem_putBit, Config.bitWire3, eq_comm]
@[simp] theorem getElem_putBit_fclr : (putBit Config.bitFclr v b)[j] = if j = 1 then v else b[j] := by
  simp [getElem_putBit, Config.bitFclr, eq_comm]
@[simp] theorem getElem_putBit_f50 : (putBit Config.bitF50 v b)[j] = if j = 0 then v else b[j] := by
  simp [getElem_putBit, Config.bitF50, eq_comm]

end

theorem State.bias_eq (s : State) : s.bias = s.cfg[7] := rfl
theorem State.oneshot_eq (s : State) : s.oneshot = s.cfg[5] := rfl
theorem State.fclr_eq (s : State) : s.fclr = s.cfg[1] := rfl

/-- A bit outside a field leaves the field. -/
theorem extractLsb'_putBit {i n k : Nat} (h : i < n ∨ n + k ≤ i) (v : Bool) (b : Byte) :
    (putBit i v b).extractLsb' n k = b.extractLsb' n k := by
  ext j hj
  simp only [BitVec.getElem_extractLsb']
  exact getLsbD_putBit_of_ne (by omega) v b

/-- The reserved bits of R13, one by one. -/
theorem and_reservedMask_eq_zero_iff (b : Byte) :
    b &&& reservedMask = 0#8 ↔ b[2] = false ∧ b[3] = false ∧ b[6] = false := by
  constructor
  · intro h
    have hbit (i : Nat) (hi : i < 8) : (b[i] && (0x4C#8)[i]) = false := by
      simpa [reservedMask] using congrArg (·[i]) h
    exact ⟨by simpa using hbit 2, by simpa using hbit 3, by simpa using hbit 6⟩
  · rintro ⟨h2, h3, h6⟩
    ext i hi
    interval_cases i <;> simp [reservedMask, h2, h3, h6]

end Sys2Proof.Machine

/-! ### The invariant, clause by clause

What a step without reset does to each clause of `Inv`: one lemma a clause, by the cases of `StepCase`. In most cases the
element stays and the clause of `s` gives that of `u`, or the guards and the new sequencer state make it empty. -/

namespace Sys2Proof.Machine

open Sys2Proof.Safety

section
variable {s u : State} (h : StepCase s u) (hr : s.lines.rstN = true) (hi : Inv s)
include h hr hi

/-- R82: each chain keeps to the sequencer states of its operation. -/
theorem StepCase.keeps_op : opAllowed u.fsm u.op = true := by
  have hop := hi.op
  cases h with
  | setBias en => cases en <;> rfl
  | count => exact hop
  | wait => exact hop
  | _ => simp_all [opAllowed]

/-- No step writes bit 2, 3 or 6 of `CFG`. -/
theorem StepCase.keeps_reserved : u.cfg &&& reservedMask = 0#8 := by
  have hres := hi.reserved
  rw [and_reservedMask_eq_zero_iff] at hres ⊢
  cases h <;> simp_all

/-- `FCLR` is set by the step into `S_FC_CLR` and cleared by the steps out of it. -/
theorem StepCase.keeps_fclr : u.fclr = decide (u.fsm = .fcClr) := by
  have hfclr := hi.fclr
  cases h with
  | setBias en => cases en <;> simp_all [State.fclr_eq]
  | count => exact hfclr
  | wait => exact hfclr
  | _ => simp_all [State.fclr_eq]

/-- `ONESHOT` is set by the step into `S_CONV` and cleared by the step out of it. -/
theorem StepCase.keeps_oneshot : u.oneshot = decide (u.fsm = .conv) := by
  have hone := hi.oneshot
  cases h with
  | setBias en => cases en <;> simp_all [State.oneshot_eq]
  | count => exact hone
  | wait => exact hone
  | _ => simp_all [State.oneshot_eq]

/-- `BIAS` is set by the step into `S_WARMUP` and cleared by the step out of `S_BIAS_OFF_W`. -/
theorem StepCase.keeps_biasOn : biased u.fsm = true → u.bias = true := by
  have hon := hi.biasOn
  cases h with
  | setBias en => cases en <;> simp [biased]
  | count => exact hon
  | wait => exact hon
  | _ => simp_all [biased, State.bias_eq]

/-- A READ enters `S_RESP` by the bias-off write only. -/
theorem StepCase.keeps_biasOff : u.fsm = .resp → u.op = .read → u.bias = false := by
  have hoff := hi.biasOff
  cases h <;> simp_all [State.bias_eq]

/-- `BWT` is loaded by the step into `S_WARMUP`, and a tick that does not end the wait leaves it positive. -/
theorem StepCase.keeps_bwtRuns : u.fsm = .warmup → 1 ≤ u.bwt.toNat ∧ u.bwt.toNat ≤ Config.warmupTicks := by
  have hruns := hi.bwtRuns
  cases h with
  | setBias en => cases en <;> simp
  | warmupOn _ hf _ h0 h1 =>
    intro _
    have hle : s.bwt.toNat ≤ 10 := (hruns hf).2
    show 1 ≤ (s.bwt - 1#4).toNat ∧ (s.bwt - 1#4).toNat ≤ 10
    bv_omega
  | _ => simp_all [warmupTicks_eq]

/-- The wait is left by the tick that takes `BWT` from 1 to 0. -/
theorem StepCase.keeps_bwtRests : u.fsm ≠ .warmup → u.bwt = 0#4 := by
  have hrests := hi.bwtRests
  cases h <;> simp_all

/-- `CTC` is loaded by the step into `S_CONV`, and nothing changes the filter bit in the wait. -/
theorem StepCase.keeps_ctcRuns : u.fsm = .conv → 1 ≤ u.ctc.toNat ∧ u.ctc.toNat ≤ u.convTicks := by
  have hruns := hi.ctcRuns
  cases h with
  | setBias en => cases en <;> simp
  | trigW =>
    intro _
    cases hf50 : s.cfg[0] <;> simp [convTicks_eq, hf50]
  | convOn _ hf _ h0 h1 =>
    intro _
    have hle : s.ctc.toNat ≤ s.convTicks := (hruns hf).2
    show 1 ≤ (s.ctc - 1#6).toNat ∧ (s.ctc - 1#6).toNat ≤ s.convTicks
    bv_omega
  | count => exact hruns
  | _ => simp_all

/-- The wait is left by the tick that takes `CTC` from 1 to 0. -/
theorem StepCase.keeps_ctcRests : u.fsm ≠ .conv → u.ctc = 0#6 := by
  have hrests := hi.ctcRests
  cases h <;> simp_all

/-- The prescaler counts only where it does not wrap. -/
theorem StepCase.keeps_pscRuns : u.psc < u.params.clkKHz := by
  have hclk := hi.clk
  have hruns := hi.pscRuns
  cases h with
  | count _ _ hw => exact lt_of_not_pscWraps hw
  | _ => simp_all

/-- A timed wait is left by a tick, and a tick is a wrap of the prescaler. -/
theorem StepCase.keeps_pscRests : u.fsm ≠ .warmup → u.fsm ≠ .conv → u.psc = 0 := by
  have hrests := hi.pscRests
  cases h with
  | count _ ht =>
    intro hw hc
    simp_all [timed]
  | _ => simp_all

/-- `RAW16` is loaded by the step into `S_BIAS_OFF_W` and cleared when the response is taken. -/
theorem StepCase.keeps_rawRests : u.fsm ≠ .biasOffW → u.fsm ≠ .resp → u.raw16 = 0#16 := by
  have hrests := hi.rawRests
  cases h <;> simp_all

/-- Only a READ is ever in `S_RTD_R`, where `RAW16` is loaded, and another command starts with `RAW16 = 0`. -/
theorem StepCase.keeps_rawOfRead : u.op ≠ .read → u.raw16 = 0#16 := by
  have hop := hi.op
  have hread := hi.rawOfRead
  have hrests := hi.rawRests
  cases h <;> simp_all [opAllowed]

/-- Each step into `S_RESP` loads the response of its operation; that of a READ goes by the fault bit of `RAW16`. -/
theorem StepCase.keeps_respHolds : u.fsm = .resp → answers u := by
  have hholds := hi.respHolds
  cases h with
  | setBias en => cases en <;> simp
  | biasOffRead _ _ _ ho => cases hb : faultBit s.raw16 <;> simp [answers, ho, hb]
  | _ => simp_all [answers]

/-- `RESP` is cleared when the response is taken. -/
theorem StepCase.keeps_respRests : u.fsm ≠ .resp → u.resp = 0#18 := by
  have hrests := hi.respRests
  cases h <;> simp_all

/-- `FLT` is cleared by the step into `S_FC_CLR` and not changed before the read. -/
theorem StepCase.keeps_fltCleared : u.op = .read → awaitingCapture u.fsm = true → u.flt = false := by
  have hclr := hi.fltCleared
  cases h <;> simp_all [awaitingCapture, biased]

/-- The read or-s its fault bit into an `FLT` that is clear. -/
theorem StepCase.keeps_fltCaptured :
    u.op = .read → u.fsm = .biasOffW ∨ u.fsm = .resp → u.flt = faultBit u.raw16 := by
  have hclr := hi.fltCleared
  have hcap := hi.fltCaptured
  cases h with
  | rtdR _ hf => simp_all [awaitingCapture, biased]
  | _ => simp_all

/-- A bus write makes shadow and `LASTW` equal. A valid CONFIGURE changes the shadow on the way into `S_CFG_W`, and the
end of the conversion changes bit 5 alone. -/
theorem StepCase.keeps_shadow : ShadowHolds u where
  agrees := by
    have hagrees := hi.shadow.agrees
    cases h with
    | convLast => simp_all [extractLsb'_putBit, Config.bitOneshot]
    | _ => simp_all
  converting := by
    have hconverting := hi.shadow.converting
    cases h with
    | setBias en => cases en <;> simp
    | _ => simp_all
  notConverting := fun hf => by
    have hone := h.keeps_oneshot hr hi
    simpa [hf, State.oneshot_eq] using hone

/-- A step without reset keeps every clause of the invariant. -/
theorem StepCase.keeps_inv : Inv u where
  clk := h.params_inputs.1 ▸ hi.clk
  op := h.keeps_op hr hi
  reserved := h.keeps_reserved hr hi
  fclr := h.keeps_fclr hr hi
  oneshot := h.keeps_oneshot hr hi
  biasOn := h.keeps_biasOn hr hi
  biasOff := h.keeps_biasOff hr hi
  bwtRuns := h.keeps_bwtRuns hr hi
  bwtRests := h.keeps_bwtRests hr hi
  ctcRuns := h.keeps_ctcRuns hr hi
  ctcRests := h.keeps_ctcRests hr hi
  pscRuns := h.keeps_pscRuns hr hi
  pscRests := h.keeps_pscRests hr hi
  rawRests := h.keeps_rawRests hr hi
  rawOfRead := h.keeps_rawOfRead hr hi
  respHolds := h.keeps_respHolds hr hi
  respRests := h.keeps_respRests hr hi
  fltCleared := h.keeps_fltCleared hr hi
  fltCaptured := h.keeps_fltCaptured hr hi
  shadow := h.keeps_shadow hr hi

end

end Sys2Proof.Machine

/-! ### Reset -/

namespace Sys2Proof.Machine

open Sys2Proof.Safety

/-- `CFG` after reset, for both values of the open wire-mode parameter (R33). -/
theorem resetWith_cfg (p : Config.Params) (inputs : List Lines) :
    (State.resetWith p inputs).cfg = if p.wire3Reset then 0x11#8 else 0x01#8 := by
  cases hw : p.wire3Reset <;> simp [State.resetWith, hw]

/-- Both reset bytes have the reserved bits and the strobe bits 0. -/
theorem resetWith_cfg_rests (p : Config.Params) (inputs : List Lines) :
    (State.resetWith p inputs).cfg &&& reservedMask = 0#8 ∧
      (State.resetWith p inputs).fclr = false ∧ (State.resetWith p inputs).oneshot = false := by
  rw [State.fclr, State.oneshot, resetWith_cfg]
  cases p.wire3Reset <;> decide

/-- Settles O28: each value is the one `resetWith` writes. -/
theorem resetState : Obligations.ResetState :=
  ⟨rfl, fun p inputs => ⟨resetWith_cfg p inputs, rfl, rfl, rfl, rfl, rfl, rfl, rfl, rfl, rfl, rfl, rfl, rfl⟩⟩

/-- Settles O26: the step is `applyReset`, which is `resetWith` but for the trace. -/
theorem resetGivesEveryElement : Obligations.ResetGivesEveryElement := fun s h =>
  ⟨_, step_reset h, resetWith_cfg s.params s.inputs, rfl, rfl, rfl, rfl, rfl, rfl, rfl, rfl, rfl, rfl, rfl, rfl, rfl⟩

/-- Settles O29: `CFG` has its strobes and reserved bits 0, and every other element is at rest in `S_CFG_W`. -/
theorem resetMeetsTheInvariant : Obligations.ResetMeetsTheInvariant := by
  intro p inputs hp
  obtain ⟨hreserved, hfclr, honeshot⟩ := resetWith_cfg_rests p inputs
  exact {
    clk := hp
    op := rfl
    reserved := hreserved
    fclr := hfclr
    oneshot := honeshot
    biasOn := nofun
    biasOff := nofun
    bwtRuns := nofun
    bwtRests := fun _ => rfl
    ctcRuns := nofun
    ctcRests := fun _ => rfl
    pscRuns := hp
    pscRests := fun _ _ => rfl
    rawRests := fun _ _ => rfl
    rawOfRead := fun _ => rfl
    respHolds := nofun
    respRests := fun _ => rfl
    fltCleared := nofun
    fltCaptured := nofun
    shadow := ⟨nofun, nofun, fun _ => honeshot⟩ }

end Sys2Proof.Machine

/-! ### The invariant of every step and every run -/

namespace Sys2Proof.Safety

open Sys2Proof.Machine

/-- The invariant does not speak of the trace or of the lines. -/
theorem Inv.withTraceInputs {s : State} (h : Inv s) (tr : List TraceEvent) (ls : List Lines) :
    Inv { s with trace := tr, inputs := ls } :=
  { h with shadow := { h.shadow with } }

end Sys2Proof.Safety

namespace Sys2Proof.Machine

open Sys2Proof.Safety

/-- Settles O30: reset starts the invariant afresh, any other step keeps each clause, and the end of the clock changes
the lines only. -/
theorem stepKeepsTheInvariant : Obligations.StepKeepsTheInvariant := by
  intro s t hi h
  cases hr : s.lines.rstN with
  | false =>
    obtain rfl : s.applyReset.endClock = t := Host.Outcome.next.inj ((step_reset hr).symm.trans h)
    exact (resetMeetsTheInvariant s.params s.inputs hi.clk).withTraceInputs s.trace s.inputs.tail
  | true =>
    obtain ⟨u, hu, rfl⟩ := step_cases h
    exact (hu.keeps_inv hr hi).withTraceInputs u.trace u.inputs.tail

/-- The invariant holds of every state a run from reset reaches. -/
theorem inv_of_reachable : ∀ s : State, Reachable s → Inv s :=
  reachable_induction resetMeetsTheInvariant stepKeepsTheInvariant

/-- Settles O32: the clauses of the invariant, in `S_IDLE`. -/
theorem idleIsCanonical : Obligations.IdleIsCanonical := by
  intro s hs hf
  have hi := inv_of_reachable s hs
  obtain ⟨h2, h3, h6⟩ := (and_reservedMask_eq_zero_iff s.cfg).1 hi.reserved
  have hop : s.op = .init := by simpa [opAllowed, hf] using hi.op
  have hfield : s.cfg.extractLsb' 2 2 = 0#2 := by
    ext i hi
    interval_cases i <;> simp [h2, h3]
  exact ⟨hop, hi.bwtRests (by simp [hf]), hi.ctcRests (by simp [hf]), hi.rawRests (by simp [hf]) (by simp [hf]),
    hi.respRests (by simp [hf]), hi.shadow.notConverting (by simp [hf]),
    by simpa [hf, State.fclr_eq] using hi.fclr, h6, hfield⟩

/-- Settles O33: the shadow clause of the invariant. -/
theorem shadowInvariantOfRuns : Obligations.ShadowInvariantOfRuns := fun s hs => (inv_of_reachable s hs).shadow

/-- A timer that is 0 outside its wait and positive inside is not 0 exactly there. -/
theorem ne_zero_iff_of_rests {w : Nat} {b : BitVec w} {p : Prop} (hruns : p → 1 ≤ b.toNat) (hrests : ¬ p → b = 0#w) :
    b ≠ 0#w ↔ p := by
  constructor
  · intro hb
    by_contra hp
    exact hb (hrests hp)
  · rintro hp rfl
    simpa using hruns hp

/-- Settles O34: the clauses on the strobes, the timers and the response, with a timer at rest at 0 within its bound. -/
theorem strobesTimersAndResponseRest : Obligations.StrobesTimersAndResponseRest := by
  intro s hs
  have hi := inv_of_reachable s hs
  have hone : s.cfg.getLsbD 5 = decide (s.fsm = .conv) := hi.oneshot
  have hfclr : s.cfg.getLsbD 1 = decide (s.fsm = .fcClr) := hi.fclr
  have hbwt : s.bwt.toNat ≤ 10 := by
    by_cases hf : s.fsm = .warmup
    · exact (hi.bwtRuns hf).2
    · simp [hi.bwtRests hf]
  have hctc : s.ctc.toNat ≤ s.convTicks := by
    by_cases hf : s.fsm = .conv
    · exact (hi.ctcRuns hf).2
    · simp [hi.ctcRests hf]
  exact ⟨by rw [hone, decide_eq_true_iff], by rw [hfclr, decide_eq_true_iff],
    hbwt, ne_zero_iff_of_rests (fun hf => (hi.bwtRuns hf).1) hi.bwtRests,
    convTicks_eq s ▸ hctc, ne_zero_iff_of_rests (fun hf => (hi.ctcRuns hf).1) hi.ctcRests, hi.respRests⟩

end Sys2Proof.Machine

/-! ### What only some steps may change, and the status outputs -/

namespace Sys2Proof.Machine

open Sys2Proof.Safety

/-- A bus state that waits has no acknowledge (R96). -/
theorem busAck_of_waits {s : State} (hw : Waits s) (hf : inTransaction s.fsm = true) : s.lines.busAck = false := by
  cases h : s.fsm <;> simp [inTransaction, h] at hf <;> simpa [Waits, h] using hw

/-- Settles O38: the acknowledged read and the first fault-clear write change `FLT`; a wait in their states has no
acknowledge. -/
theorem faultLatchChanges : Obligations.FaultLatchChanges := by
  intro s t hr h
  obtain ⟨u, hu, rfl⟩ := step_cases h
  cases hu with
  | wait _ _ hw =>
    cases hf : inTransaction s.fsm with
    | true => simp [busAck_of_waits hw hf]
    | false => simp_all [inTransaction]
  | count _ ht =>
    obtain hf | hf : s.fsm = .warmup ∨ s.fsm = .conv := by simpa [timed] using ht
    · simp [hf]
    · simp [hf]
  | _ => simp_all [faultBit]

/-- Without reset, a step either is an accepted valid CONFIGURE or keeps the calibration, the filter and the wire
mode. -/
theorem StepCase.configures_or_keeps {s u : State} (h : StepCase s u) (hr : s.lines.rstN = true) :
    (s.fsm = .idle ∧ s.lines.cmdValid = true ∧ ∃ rv zv filt wires,
      decode s.lines.cmdWord = .ok (.configure rv zv filt wires) ∧ ValidArguments filt wires) ∨
    (u.calRref = s.calRref ∧ u.calR0 = s.calR0 ∧ u.cfg[0] = s.cfg[0] ∧ u.cfg[4] = s.cfg[4]) := by
  cases h with
  | configure rv zv filt wires _ hf hv hd ha =>
    exact .inl ⟨hf, hv, rv, zv, filt, wires, hd, (argumentsOk_iff filt wires).1 ha⟩
  | reset h0 => simp [h0] at hr
  | _ => exact .inr (by simp)

/-- Settles O39: any other step keeps all four. -/
theorem onlyConfigureReconfigures : Obligations.OnlyConfigureReconfigures := by
  intro s t hr h hne
  obtain ⟨u, hu, rfl⟩ := step_cases h
  rcases hu.configures_or_keeps hr with hconf | ⟨href, hr0, hf50, hwire⟩
  · exact hconf
  · simp [href, hr0, hf50, hwire] at hne

/-- Settles O45: outside reset the outputs read the registers as they stand. -/
theorem statusOutputs : Obligations.StatusOutputs := by
  intro s hr
  simp [State.outputs, now_of_running hr]

end Sys2Proof.Machine

/-! ### Bus transactions and the bus port

The bus transaction of a step is the request on the port in its clock, once it is acknowledged (`busDone`). From this come
the bound of one transaction a step (R49) and the byte that a write puts on the trace (R44). -/

namespace Sys2Proof.Machine

open Sys2Proof.Safety

@[simp] theorem State.applyReset_trace (s : State) : s.applyReset.trace = s.trace := rfl

@[simp] theorem State.beginConfigure_trace (s : State) (rv zv : Bool) (filt wires : Nat) :
    (s.beginConfigure rv zv filt wires).trace = s.trace := rfl

/-- The end of a clock emits nothing. -/
@[simp] theorem emitted_endClock (s u : State) : emitted s u.endClock = emitted s u := rfl

@[simp] theorem emitted_self (s : State) : emitted s s = [] := List.drop_length

/-! #### The request -/

/-- The port shows the state's request outside reset only (R190). -/
theorem outputs_bus_eq_some_iff {s : State} {r : BusRequest} :
    s.outputs.bus = some r ↔ s.lines.rstN = true ∧ s.busRequest = some r := by
  cases hr : s.lines.rstN <;> simp [State.outputs, hr]

/-- R43: a write is to the configuration register. -/
theorem idx_of_busRequest_write {s : State} {idx v : Byte} (h : s.busRequest = some (.write idx v)) :
    idx = Config.regCfg := by
  cases hf : s.fsm <;> simp_all [State.busRequest]

/-- R42, R58: a read is of the raw register, in `S_RTD_R`. -/
theorem idx_fsm_of_busRequest_read {s : State} {idx : Byte} (h : s.busRequest = some (.read idx)) :
    idx = Config.regRtd ∧ s.fsm = .rtdR := by
  cases hf : s.fsm <;> simp_all [State.busRequest]

/-- The bus states are the ones that request. -/
theorem busRequest_isSome (s : State) : s.busRequest.isSome = inTransaction s.fsm := by
  cases hf : s.fsm <;> simp [State.busRequest, inTransaction, hf]

theorem inTransaction_of_busRequest {s : State} {r : BusRequest} (h : s.busRequest = some r) :
    inTransaction s.fsm = true := by
  rw [← busRequest_isSome, h, Option.isSome_some]

/-- No bus state is a timed wait. -/
theorem inTransaction_of_timed {f : Fsm} (h : timed f = true) : inTransaction f = false := by
  cases f <;> simp_all [timed, inTransaction]

/-- R96, R47: without an acknowledge a bus state only lets the clock end. -/
theorem step_unacknowledged {s : State} (hr : s.lines.rstN = true) (hf : inTransaction s.fsm = true)
    (ha : s.lines.busAck = false) : step s = .next s.endClock := by
  have ht : timed s.fsm = false := Bool.eq_false_iff.2 fun h => by simp [inTransaction_of_timed h] at hf
  have hw : Waits s := by cases h : s.fsm <;> simp_all [inTransaction, Waits]
  exact step_wait hr ht hw

/-! #### The transaction -/

/-- The event that the trace records when a request is done and the chip drives `d` (R44, R45). -/
def BusRequest.event (d : Half) : BusRequest → TraceEvent
  | .write _ v => .write v
  | .read _ => .read d

/-- The bus transaction done in this clock: the request on the port, if it is acknowledged. -/
def State.busDone (s : State) : Option TraceEvent :=
  bif s.lines.busAck then s.outputs.bus.map (BusRequest.event s.lines.busRdata) else none

theorem busDone_of_not_inTransaction {s : State} (hf : inTransaction s.fsm = false) : s.busDone = none := by
  have hreq : s.busRequest = none := by simpa [hf] using busRequest_isSome s
  simp [State.busDone, State.outputs, hreq]

theorem busDone_of_unacknowledged {s : State} (ha : s.lines.busAck = false) : s.busDone = none := by
  simp [State.busDone, ha]

/-- R81: every step appends to the trace. -/
theorem StepCase.trace_eq_append {s u : State} (h : StepCase s u) : u.trace = s.trace ++ emitted s u := by
  cases h <;> simp [emitted]

/-- R43, R44, R45: the bus transaction a step emits is the request that was on the port, acknowledged. -/
theorem StepCase.emits_busDone {s u : State} (h : StepCase s u) : (emitted s u).filter isBus = s.busDone.toList := by
  cases h with
  | reset hr => simp [emitted, State.busDone, State.outputs, hr]
  | count _ ht => simp [emitted, busDone_of_not_inTransaction (inTransaction_of_timed ht)]
  | wait _ _ hw =>
    cases hf : inTransaction s.fsm with
    | true => simp [busDone_of_unacknowledged (busAck_of_waits hw hf)]
    | false => simp [busDone_of_not_inTransaction hf]
  | _ => simp_all [emitted, isBus, List.filter_cons, State.busDone, State.outputs, State.busRequest, BusRequest.event]

/-- Settles O41: a step only appends to the trace, and the bus part of what it appends is one transaction or none. -/
theorem oneTransactionAtATime : Obligations.OneTransactionAtATime := by
  intro s t h
  obtain ⟨u, hu, rfl⟩ := step_cases h
  refine ⟨hu.trace_eq_append, ?_⟩
  rw [emitted_endClock, hu.emits_busDone]
  exact Option.length_toList_le

/-- R43, R44: an acknowledged write leaves the byte driven in `CFG` and in `LASTW`. -/
theorem StepCase.writes_driven_byte {s u : State} (h : StepCase s u) {idx v : Byte} (hr : s.lines.rstN = true)
    (ha : s.lines.busAck = true) (hreq : s.busRequest = some (.write idx v)) :
    u.lastw = v ∧ u.lastwValid = true ∧ u.cfg = v := by
  have hf := inTransaction_of_busRequest hreq
  cases h with
  | count _ ht => simp [inTransaction_of_timed ht] at hf
  | wait _ _ hw => simp [busAck_of_waits hw hf] at ha
  | _ => simp_all [State.busRequest]

/-- Settles O43: an acknowledged write is done with the byte driven, and without an acknowledge only the lines
change. -/
theorem portDrivesTheWrittenByte : Obligations.PortDrivesTheWrittenByte := by
  intro s idx v hr hbus
  obtain ⟨-, hreq⟩ := outputs_bus_eq_some_iff.1 hbus
  refine ⟨idx_of_busRequest_write hreq, fun ha t h => ?_, fun ha t h => ?_⟩
  · obtain ⟨u, hu, rfl⟩ := step_cases h
    obtain ⟨hlastw, hvalid, hcfg⟩ := hu.writes_driven_byte hr ha hreq
    refine ⟨hlastw, hvalid, hcfg, ?_⟩
    rw [emitted_endClock, hu.emits_busDone, State.busDone, ha, hbus]
    rfl
  · rw [step_unacknowledged hr (inTransaction_of_busRequest hreq) ha] at h
    cases h
    exact ⟨hreq, by simp⟩

/-- Settles O44: the acknowledged read loads `RAW16` with what the chip drives, and keeps `CFG`. -/
theorem onlyTheRawRegisterIsRead : Obligations.OnlyTheRawRegisterIsRead := by
  intro s idx hbus
  obtain ⟨hr, hreq⟩ := outputs_bus_eq_some_iff.1 hbus
  obtain ⟨hidx, hf⟩ := idx_fsm_of_busRequest_read hreq
  exact ⟨hidx, hf, hr, fun ha => ⟨_, step_readDone hr ha hf, rfl, rfl⟩⟩

end Sys2Proof.Machine

/-! ### Command words

`decode_eq_ok_iff` says once what the decoder accepts. Match and mask (R63 to R65) test the opcode and the zero field of
a format at once; the encoded CONFIGURE is its fields side by side. -/

namespace Sys2Proof

open Sys2Proof.Safety

/-- R61 to R65: each format is the opcode, a field that must be zero, and the operands. -/
theorem decode_eq_ok_iff (w : Word) (i : Instr) : decode w = .ok i ↔
    (Word.opc w = 1#4 ∧ w.extractLsb' 16 10 = 0#10) ∧
      i = .configure (w.getLsbD 27) (w.getLsbD 26) (w.extractLsb' 8 8).toNat (w.extractLsb' 0 8).toNat ∨
    (Word.opc w = 2#4 ∧ w.extractLsb' 1 27 = 0#27) ∧ i = .setBias (w.getLsbD 0) ∨
    (Word.opc w = 3#4 ∧ w.extractLsb' 0 28 = 0#28) ∧ i = .read := by
  by_cases h1 : Word.opc w = 1#4
  · by_cases hz : w.extractLsb' 16 10 = 0#10 <;> simp [decode, decodeConfigure, h1, hz, eq_comm]
  by_cases h2 : Word.opc w = 2#4
  · by_cases hz : w.extractLsb' 1 27 = 0#27 <;> simp [decode, decodeSetBias, h2, hz, eq_comm]
  by_cases h3 : Word.opc w = 3#4
  · by_cases hz : w.extractLsb' 0 28 = 0#28 <;> simp [decode, decodeRead, h3, hz, eq_comm]
  · simp [decode, h1, h2, h3]

/-- R70: the decoder refuses the illegal words and no other. -/
theorem illegalWord_iff_decode_error (w : Word) : IllegalWord w ↔ ∃ e, decode w = .error e := by
  have herr : (∃ e, decode w = .error e) ↔ ¬ ∃ i, decode w = .ok i := by cases decode w <;> simp
  simp only [herr, decode_eq_ok_iff, IllegalWord, Word.opc]
  by_cases h1 : w.extractLsb' 28 4 = 1#4
  · simp [h1]
  by_cases h2 : w.extractLsb' 28 4 = 2#4
  · simp [h2]
  by_cases h3 : w.extractLsb' 28 4 = 3#4 <;> simp [h1, h2, h3]

/-- A mask over the opcode and the field from `n` to `n + k`, with the opcode `c` as the match, tests that the opcode is
`c` and the field zero. -/
theorem and_eq_iff_opc_field (w : Word) {m v : Word} {c : BitVec 4} {n k : Nat} (hk : n + k ≤ 28)
    (hm : ∀ i < 32, m.getLsbD i = decide (28 ≤ i ∨ n ≤ i ∧ i < n + k))
    (hv : ∀ i < 32, v.getLsbD i = (decide (28 ≤ i) && c.getLsbD (i - 28))) :
    w &&& m = v ↔ Word.opc w = c ∧ w.extractLsb' n k = 0#k := by
  rw [and_eq_iff, Word.opc, field_eq_iff, field_eq_iff]
  constructor
  · intro h
    refine ⟨fun i hi => ?_, fun i hi => ?_⟩
    · have hbit := h (28 + i) (by omega)
      rw [hm _ (by omega), hv _ (by omega)] at hbit
      simpa using hbit
    · have hbit := h (n + i) (by omega)
      rw [hm _ (by omega), hv _ (by omega)] at hbit
      simpa [hi, show ¬ 28 ≤ n + i by omega] using hbit
  · rintro ⟨hopc, hzero⟩ i hi
    rw [hm i hi, hv i hi]
    by_cases hi28 : 28 ≤ i
    · obtain ⟨j, rfl⟩ := Nat.exists_eq_add_of_le hi28
      simp [hopc j (by omega)]
    by_cases hfield : n ≤ i ∧ i < n + k
    · obtain ⟨j, rfl⟩ := Nat.exists_eq_add_of_le hfield.1
      simp [hi28, hzero j (by omega)]
    · simp [hi28, hfield]

theorem and_configureMask_iff (w : Word) :
    w &&& 0xF3FF0000#32 = 0x10000000#32 ↔ Word.opc w = 1#4 ∧ w.extractLsb' 16 10 = 0#10 :=
  and_eq_iff_opc_field w (by decide) (by decide) (by decide)

theorem and_setBiasMask_iff (w : Word) :
    w &&& 0xFFFFFFFE#32 = 0x20000000#32 ↔ Word.opc w = 2#4 ∧ w.extractLsb' 1 27 = 0#27 :=
  and_eq_iff_opc_field w (by decide) (by decide) (by decide)

theorem and_readMask_iff (w : Word) :
    w &&& 0xFFFFFFFF#32 = 0x30000000#32 ↔ Word.opc w = 3#4 ∧ w.extractLsb' 0 28 = 0#28 :=
  and_eq_iff_opc_field w (by decide) (by decide) (by decide)

/-- Settles O4: the mask of each command is the decoder's test, and the operands are the decoder's fields. -/
theorem commandsByMatchAndMask : Obligations.CommandsByMatchAndMask := by
  intro w
  rw [and_setBiasMask_iff, and_readMask_iff]
  refine ⟨fun rv zv filt wires => ?_, fun en => ?_, ?_⟩
  · simp [and_configureMask_iff, decode_eq_ok_iff]
  · simp [decode_eq_ok_iff]
  · simp [decode_eq_ok_iff]

theorem wf_configure_toNat (rv zv : Bool) (f w : BitVec 8) : (Instr.configure rv zv f.toNat w.toNat).wf = true := by
  simp only [Instr.wf, fitsByte, Bool.and_eq_true, decide_eq_true_eq]
  exact ⟨f.isLt, w.isLt⟩

/-- The operands of CONFIGURE come back from its word, at every value (R63). -/
theorem decode_encode_configure (rv zv : Bool) (f w : BitVec 8) :
    decode (encode (.configure rv zv f.toNat w.toNat)) = .ok (.configure rv zv f.toNat w.toNat) := by
  have hmatch := Laws.EncodeInTable.configure rv zv _ _ (wf_configure_toNat rv zv f w)
  rw [Laws.tableMask, Laws.tableMatch, and_configureMask_iff] at hmatch
  rw [decode_eq_ok_iff]
  refine .inl ⟨hmatch, ?_⟩
  have hfilt : (encode (.configure rv zv f.toNat w.toNat)).extractLsb' 8 8 = f := by
    rw [encode_configure, BitVec.extractLsb'_append_eq_of_le (Nat.le_refl 8)]
    exact BitVec.extractLsb'_append_eq_right
  have hwires : (encode (.configure rv zv f.toNat w.toNat)).extractLsb' 0 8 = w := by
    rw [encode_configure]
    exact BitVec.extractLsb'_append_eq_right
  rw [hfilt, hwires]
  simp only [encode_configure, BitVec.getLsbD_append]
  simp

/-- Settles O2: operands that fit their fields are the values of bytes. -/
theorem decodeOfEncode : Obligations.DecodeOfEncode := by
  intro i hwf
  cases i with
  | configure rv zv filt wires =>
    obtain ⟨hfilt, hwires⟩ : filt < 256 ∧ wires < 256 := by simpa [Instr.wf, fitsByte] using hwf
    simpa [Nat.mod_eq_of_lt hfilt, Nat.mod_eq_of_lt hwires] using
      decode_encode_configure rv zv (BitVec.ofNat 8 filt) (BitVec.ofNat 8 wires)
  | setBias en => cases en <;> decide
  | read => decide

theorem ofBool_getLsbD (w : Word) (n : Nat) : BitVec.ofBool (w.getLsbD n) = w.extractLsb' n 1 := by
  ext i hi
  obtain rfl : i = 0 := by omega
  simp

/-- A word is its fields of format `C` side by side (R63). -/
theorem configureFields_append (w : Word) :
    Word.opc w ++ BitVec.ofBool (w.getLsbD 27) ++ BitVec.ofBool (w.getLsbD 26) ++ w.extractLsb' 16 10 ++
      w.extractLsb' 8 8 ++ w.extractLsb' 0 8 = w := by
  simp only [Word.opc, ofBool_getLsbD, BitVec.extractLsb'_append_extractLsb'_eq_extractLsb']
  exact BitVec.extractLsb'_eq_self

/-- A word is its fields of format `B` side by side (R64). -/
theorem setBiasFields_append (w : Word) :
    Word.opc w ++ w.extractLsb' 1 27 ++ BitVec.ofBool (w.getLsbD 0) = w := by
  simp only [Word.opc, ofBool_getLsbD, BitVec.extractLsb'_append_extractLsb'_eq_extractLsb']
  exact BitVec.extractLsb'_eq_self

theorem encode_setBias (en : Bool) : encode (.setBias en) = 2#4 ++ 0#27 ++ BitVec.ofBool en := by
  cases en <;> rfl

/-- Settles O3: opcode, zero field and operands are all of the word. -/
theorem encodeOfDecode : Obligations.EncodeOfDecode := by
  intro w i h
  rw [decode_eq_ok_iff] at h
  obtain ⟨⟨hopc, hzero⟩, rfl⟩ | ⟨⟨hopc, hzero⟩, rfl⟩ | ⟨⟨hopc, hzero⟩, rfl⟩ := h
  · refine ⟨wf_configure_toNat .., ?_⟩
    rw [encode_configure, ← hopc, ← hzero, configureFields_append]
  · refine ⟨rfl, ?_⟩
    rw [encode_setBias, ← hopc, ← hzero, setBiasFields_append]
  · refine ⟨rfl, ?_⟩
    have hfields : Word.opc w ++ w.extractLsb' 0 28 = w := BitVec.extractLsb'_append_extractLsb'
    rw [← hfields, hopc, hzero]
    rfl

/-- Settles O1: the eight legal words are read, and the other six are illegal by R70. -/
theorem vectorWordsDecode : Obligations.VectorWordsDecode := by
  refine ⟨by decide, by decide, by decide, by decide, by decide, by decide, by decide, by decide, ?_⟩
  simp only [← illegalWord_iff_decode_error]
  simp [IllegalWord]

end Sys2Proof

/-! ### Acceptance, and the block that is busy -/

namespace Sys2Proof.Machine

open Sys2Proof.Safety

theorem acceptWord_ok {s : State} {w : Word} {i : Instr} (hf : s.fsm = .idle) (hd : decode w = .ok i) :
    acceptWord w s = exec i (s.emit (.accept w)) := by
  simp [acceptWord, hf, hd]

theorem acceptWord_error {s : State} {w : Word} {e : DecodeError} (hf : s.fsm = .idle) (hd : decode w = .error e) :
    acceptWord w s = .next ((s.emit (.accept w)).reject .illegalCommand) := by
  simp [acceptWord, hf, hd]

theorem acceptWord_busy {s : State} (hf : s.fsm ≠ .idle) (w : Word) : acceptWord w s = .next s := by
  simp [acceptWord, hf]

/-- Log entry 13: a busy block does not run a command. -/
theorem exec_busy {s : State} (hf : s.fsm ≠ .idle) (i : Instr) : exec i s = .next s := by
  cases i with
  | configure rv zv filt wires => rw [exec, execConfigure, whenIdle_busy hf]
  | setBias en => rw [exec, execSetBias, whenIdle_busy hf]
  | read => rw [exec, execRead, whenIdle_busy hf]

/-- R111: a bad argument is rejected. -/
theorem exec_configure_badArgument {s : State} (hf : s.fsm = .idle) (rv zv : Bool) {filt wires : Nat}
    (ha : ¬ ValidArguments filt wires) : exec (.configure rv zv filt wires) s = .next (s.reject .invalidArgument) := by
  have hbad : argumentsOk filt wires = false := Bool.eq_false_iff.2 (mt (argumentsOk_iff filt wires).1 ha)
  rw [exec, execConfigure, whenIdle_idle hf, hbad, cond_false]

/-- Settles O5: the step of an accepting clock decodes the word on the lines. -/
theorem stepRunsTheDecodedCommand : Obligations.StepRunsTheDecodedCommand := by
  intro s i hf hr hv hd
  rw [step_accept hr hf hv, acceptWord_ok hf hd]

/-- Settles O6: an illegal word and a bad argument are both rejected, each with its own status. -/
theorem illegalWordIsReported : Obligations.IllegalWordIsReported := by
  rintro s w hf hr hv rfl
  refine ⟨illegalWord_iff_decode_error _, fun hill => ?_, fun rv zv filt wires hd ha => ?_⟩
  · obtain ⟨e, hd⟩ := (illegalWord_iff_decode_error _).1 hill
    rw [step_accept hr hf hv, acceptWord_error hf hd]
    rfl
  · rw [step_accept hr hf hv, acceptWord_ok hf hd, exec_configure_badArgument (by exact hf) rv zv ha]
    rfl

/-! #### The lines of this clock

An event carries what a busy block takes from the lines, so that delivering it does not look at them again. -/

section
variable (s : State) (l : Lines)

@[simp] theorem State.withLines_pscWraps : (s.withLines l).pscWraps = s.pscWraps := rfl

theorem State.withLines_pscWrap : (s.withLines l).pscWrap = s.pscWrap.withLines l := rfl

/-- The end of the clock takes this clock's lines away. -/
@[simp] theorem State.withLines_endClock : (s.withLines l).endClock = s.endClock := rfl

theorem writeDone_withLines :
    afterward (writeDone (s.withLines l)) State.endClock = afterward (writeDone s) State.endClock := by
  cases hf : s.fsm with
  | fcClr => cases ho : s.op <;> simp [writeDone, microFcClr, hf, ho] <;> rfl
  | biasOffW => cases ho : s.op <;> simp [writeDone, microBiasOffW, hf, ho] <;> rfl
  | _ => simp [writeDone, hf] <;> rfl

theorem microWarmup_withLines :
    afterward (microWarmup (s.withLines l)) State.endClock = afterward (microWarmup s) State.endClock := by
  by_cases h0 : s.bwt = 0#4
  · rw [microWarmup_zero h0, microWarmup_zero (by exact h0)]
  by_cases h1 : s.bwt = 1#4
  · cases ho : s.op <;> simp [microWarmup, h1, ho] <;> rfl
  · rw [microWarmup_on h0 h1, microWarmup_on (by exact h0) (by exact h1)]
    rfl

theorem microConv_withLines :
    afterward (microConv (s.withLines l)) State.endClock = afterward (microConv s) State.endClock := by
  by_cases h0 : s.ctc = 0#6
  · rw [microConv_zero h0, microConv_zero (by exact h0)]
  by_cases h1 : s.ctc = 1#6
  · rw [microConv_last h1, microConv_last (by exact h1)]
    rfl
  · rw [microConv_on h0 h1, microConv_on (by exact h0) (by exact h1)]
    rfl

theorem tick_withLines : afterward (tick (s.withLines l)) State.endClock = afterward (tick s) State.endClock := by
  cases hf : s.fsm with
  | warmup => simpa only [tick, State.withLines_fsm, State.withLines_pscWrap, hf] using
      microWarmup_withLines s.pscWrap l
  | conv => simpa only [tick, State.withLines_fsm, State.withLines_pscWrap, hf] using
      microConv_withLines s.pscWrap l
  | _ => simp [tick, hf]

end

/-- Outside `S_IDLE` no event looks at the lines. -/
theorem deliver_withLines {s : State} (hf : s.fsm ≠ .idle) (l : Lines) (e : Event) :
    afterward (deliver e (s.withLines l)) State.endClock = afterward (deliver e s) State.endClock := by
  cases e with
  | reset => rfl
  | accept w =>
    rw [deliver, deliver, acceptWord_busy hf, acceptWord_busy (by exact hf)]
    rfl
  | writeDone => exact writeDone_withLines s l
  | readDone d =>
    by_cases h : s.fsm = .rtdR
    · simp [deliver, h]
      rfl
    · simp [deliver, h]
  | tick => exact tick_withLines s l
  | take =>
    by_cases h : s.fsm = .resp
    · simp [deliver, h]
      rfl
    · simp [deliver, h]
  | count =>
    by_cases h : s.fsm = .warmup ∨ s.fsm = .conv
    · simp [deliver, h]
      rfl
    · simp [deliver, h]
  | none => rfl

/-- R60, R80: outside `S_IDLE` the command port raises no event. -/
theorem enabledEvent_ignores_command {s : State} (hf : s.fsm ≠ .idle) (l : Lines) (v : Bool) (w : Word)
    (ref r0 : Bits64) :
    enabledEvent (s.withLines { l with cmdValid := v, cmdWord := w, cmdRef := ref, cmdR0 := r0 }) =
      enabledEvent (s.withLines l) := by
  cases h : s.fsm with
  | idle => exact absurd h hf
  | _ => simp [enabledEvent, h]

/-- Settles O12: a busy block runs no command, takes no event from the command port, and delivers the others without
looking at the lines. -/
theorem busyBlockAcceptsNothing : Obligations.BusyBlockAcceptsNothing := by
  intro s hf
  refine ⟨exec_busy hf, fun l v w ref r0 => ?_⟩
  rw [step_eq, step_eq, enabledEvent_ignores_command hf, deliver_withLines hf, deliver_withLines hf]

end Sys2Proof.Machine

/-! ### What runs put on the trace

An event on the trace of a run is one that some step emitted from a state with the invariant (`emitted_of_mem_trace`),
so a claim about the events of all runs is one about a step. -/

namespace Sys2Proof.Machine

open Sys2Proof.Safety

/-- The trace is empty after reset and steps only append to it. -/
theorem emitted_of_mem_trace {s : State} (hs : Reachable s) {e : TraceEvent} (he : e ∈ s.trace) :
    ∃ a u : State, Inv a ∧ StepCase a u ∧ e ∈ emitted a u := by
  have hrun : ∀ t, Reachable t → Inv t ∧ (e ∈ t.trace → ∃ a u : State, Inv a ∧ StepCase a u ∧ e ∈ emitted a u) := by
    refine reachable_induction (fun p inputs hp => ⟨resetMeetsTheInvariant p inputs hp, nofun⟩) ?_
    rintro t t' ⟨hi, htrace⟩ hstep
    refine ⟨stepKeepsTheInvariant t t' hi hstep, fun he' => ?_⟩
    obtain ⟨u, hu, rfl⟩ := step_cases hstep
    rw [State.endClock_trace, hu.trace_eq_append, List.mem_append] at he'
    exact he'.elim htrace fun hnew => ⟨t, u, hi, hu, hnew⟩
  exact (hrun s hs).2 he

/-! #### Bytes -/

/-- R44: a byte goes on the trace without reset only, and `CFG` has it after the step. -/
theorem StepCase.cfg_of_emitted_write {s u : State} (h : StepCase s u) {v : Byte} (hv : .write v ∈ emitted s u) :
    s.lines.rstN = true ∧ u.cfg = v := by
  have hbus : .write v ∈ (emitted s u).filter isBus := List.mem_filter.2 ⟨hv, rfl⟩
  rw [h.emits_busDone, Option.mem_toList, State.busDone] at hbus
  cases ha : s.lines.busAck with
  | false => simp [ha] at hbus
  | true =>
    rw [ha, cond_true, Option.map_eq_some_iff] at hbus
    obtain ⟨r, hr, hevent⟩ := hbus
    obtain ⟨hrst, hreq⟩ := outputs_bus_eq_some_iff.1 hr
    cases r with
    | read idx => cases hevent
    | write idx b =>
      cases hevent
      exact ⟨hrst, (h.writes_driven_byte hrst ha hreq).2.2⟩

/-- R71: `CFG` has its reserved bits 0 and not both strobes set. -/
theorem cfg_writable_of_inv {s : State} (hi : Inv s) :
    s.cfg &&& 0x4C#8 = 0#8 ∧ ¬ (s.cfg.getLsbD 5 = true ∧ s.cfg.getLsbD 1 = true) := by
  refine ⟨hi.reserved, ?_⟩
  rintro ⟨hone, hfclr⟩
  have hconv : s.fsm = .conv := of_decide_eq_true (hi.oneshot.symm.trans hone)
  have hclr : s.fsm = .fcClr := of_decide_eq_true (hi.fclr.symm.trans hfclr)
  simp [hconv] at hclr

theorem getElem_fieldAt (i : Nat) (v : Bool) (j : Nat) (hj : j < 8) : (fieldAt i v)[j] = (decide (i = j) && v) := by
  cases v with
  | false => simp [fieldAt]
  | true => simpa [putBit, fieldAt] using getElem_putBit i true 0#8 j hj

/-- R71: a byte with its reserved bits 0 is its five fields. -/
theorem ser_eq_cfg {s : State} (h : s.cfg &&& reservedMask = 0#8) :
    ser s.bias s.oneshot s.wire3 s.fclr s.f50 = s.cfg := by
  obtain ⟨h2, h3, h6⟩ := (and_reservedMask_eq_zero_iff s.cfg).1 h
  ext i hi
  simp only [ser, BitVec.getElem_or, getElem_fieldAt, State.bias, State.oneshot, State.wire3, State.fclr, State.f50,
    Config.bitBias, Config.bitOneshot, Config.bitWire3, Config.bitFclr, Config.bitF50]
  interval_cases i <;> simp [h2, h3, h6]

/-- Settles O35: a byte written is the shadow after the write, which meets the invariant. -/
theorem bytesOnTheBus : Obligations.BytesOnTheBus := by
  refine ⟨fun s hs v hv => ?_, fun s hi => ser_eq_cfg hi.reserved⟩
  obtain ⟨a, u, ha, hau, hv⟩ := emitted_of_mem_trace hs hv
  obtain ⟨hr, rfl⟩ := hau.cfg_of_emitted_write hv
  exact cfg_writable_of_inv (hau.keeps_inv hr ha)

/-! #### Responses -/

/-- R93: a response is emitted from `S_RESP`, and it is the one in `RESP`. -/
theorem StepCase.emits_resp {s u : State} (h : StepCase s u) {st : BitVec 3} {code : RawCode}
    (he : .resp st code ∈ emitted s u) : s.fsm = .resp ∧ st = respStatus s.resp ∧ code = respCode s.resp := by
  cases h <;> simp_all [emitted]

/-- R160, R163: no answer has the status `DEVICE_OFF`, and only `OK` has a code. -/
theorem status_code_of_answers {s : State} (h : answers s) :
    (respStatus s.resp = 0#3 ∨ respStatus s.resp = 1#3 ∨ respStatus s.resp = 2#3 ∨ respStatus s.resp = 4#3) ∧
      (respStatus s.resp ≠ 0#3 → respCode s.resp = 0#15) := by
  cases ho : s.op with
  | init =>
    obtain h | h : s.resp = respWord .invalidArgument 0#15 ∨ s.resp = respWord .illegalCommand 0#15 := by
      simpa only [answers, ho] using h
    · simp [h, Status.code]
    · simp [h, Status.code]
  | read => cases hb : faultBit s.raw16 <;> simp_all [answers, Status.code]
  | _ => simp_all [answers, Status.code]

/-- Settles O36: a response taken is what stood in `RESP`, an answer by the invariant. -/
theorem responsesOfRuns : Obligations.ResponsesOfRuns := by
  intro s hs st code he
  obtain ⟨a, u, ha, hau, he⟩ := emitted_of_mem_trace hs he
  obtain ⟨hf, rfl, rfl⟩ := hau.emits_resp he
  exact status_code_of_answers (ha.respHolds hf)

/-! #### Accepted commands and responses -/

/-- A command is in flight outside `S_IDLE`, but not in the bus writes of the initialisation (R192). -/
theorem commandInFlight_eq (s : State) : commandInFlight s =
    decide (s.fsm ≠ .idle ∧ ¬ (s.op = .init ∧ (s.fsm = .cfgW ∨ s.fsm = .fcSet ∨ s.fsm = .fcClr))) := by
  cases hf : s.fsm <;> cases ho : s.op <;> simp [commandInFlight, hf, ho]

/-- R67, R200: an acceptance puts a command in flight, and taking the response ends it. -/
theorem StepCase.accepts_responds {s u : State} (h : StepCase s u) (hr : s.lines.rstN = true) (hi : Inv s) :
    ((emitted s u).filter isAccept).length + (commandInFlight s).toNat =
      ((emitted s u).filter isResp).length + (commandInFlight u).toNat := by
  have hop := hi.op
  simp only [commandInFlight_eq]
  cases h with
  | setBias en => cases en <;> simp_all [emitted, isAccept, isResp, List.filter_cons]
  | count => simp [emitted]
  | wait => simp [emitted]
  | _ => simp_all [emitted, isAccept, isResp, opAllowed, List.filter_cons]

/-- Settles O37: the counts before the step are on both sides, and what it emits keeps the balance. -/
theorem oneResponsePerCommand : Obligations.OneResponsePerCommand := by
  intro s t hi hr hstep
  obtain ⟨u, hu, rfl⟩ := step_cases hstep
  have hcount := hu.accepts_responds hr hi
  have hflight : commandInFlight u.endClock = commandInFlight u := rfl
  simp only [State.endClock_trace, hu.trace_eq_append, List.filter_append, List.length_append, hflight]
  omega

end Sys2Proof.Machine

/-! ### One step of each sequencer state

The step of a bus state is its micro-operation once the collaborator acknowledges, and the step of a timed wait is its
micro-operation at a tick (R84 to R93). -/

namespace Sys2Proof.Machine

open Sys2Proof.Safety

/-! #### The acknowledged bus write of each state -/

section
variable {s : State} (hr : s.lines.rstN = true) (ha : s.lines.busAck = true)
include hr ha

theorem step_cfgW (hf : s.fsm = .cfgW) : step s = .next (microCfgW s).endClock := by
  rw [step_writeDone hr ha (by simp [hf])]
  simp only [writeDone, hf, afterward_next]

theorem step_fcSet (hf : s.fsm = .fcSet) : step s = .next (microFcSet s).endClock := by
  rw [step_writeDone hr ha (by simp [hf])]
  simp only [writeDone, hf, afterward_next]

theorem step_fcClr (hf : s.fsm = .fcClr) : step s = afterward (microFcClr s) State.endClock := by
  rw [step_writeDone hr ha (by simp [hf])]
  simp only [writeDone, hf]

theorem step_biasOnW (hf : s.fsm = .biasOnW) : step s = .next (microBiasOnW s).endClock := by
  rw [step_writeDone hr ha (by simp [hf])]
  simp only [writeDone, hf, afterward_next]

theorem step_trigW (hf : s.fsm = .trigW) : step s = .next (microTrigW s).endClock := by
  rw [step_writeDone hr ha (by simp [hf])]
  simp only [writeDone, hf, afterward_next]

theorem step_biasOffW (hf : s.fsm = .biasOffW) : step s = afterward (microBiasOffW s) State.endClock := by
  rw [step_writeDone hr ha (by simp [hf])]
  simp only [writeDone, hf]

end

/-! #### Bus writes -/

/-- Settles O13: the flush writes the shadow as it stands. -/
theorem configurationFlushStep : Obligations.ConfigurationFlushStep := fun _ hr hf ha => step_cfgW hr ha hf

/-- Settles O14: the strobe bit is set before the flush. -/
theorem faultClearSetStep : Obligations.FaultClearSetStep := fun _ hr hf ha => step_fcSet hr ha hf

/-- Settles O15: the strobe bit is cleared before the flush, and the operation decides what comes next. -/
theorem faultClearClearStep : Obligations.FaultClearClearStep := by
  intro s hr hf ha
  rw [step_fcClr hr ha hf]
  split
  · next ho => rw [microFcClr_read ho]; rfl
  · next ho => rw [microFcClr_configure ho]; rfl
  · next ho => rw [microFcClr_init ho]; rfl
  · next ho => rw [microFcClr_setBias ho]; rfl

/-- Settles O16: the write comes before the start of the timer on the trace. -/
theorem biasEnableStep : Obligations.BiasEnableStep := by
  intro s hr hf ha
  rw [step_biasOnW hr ha hf, List.append_cons]
  rfl

/-- Settles O18: setting `ONESHOT` leaves the filter bit, so the delay is the one that the shadow selected before. -/
theorem triggerStep : Obligations.TriggerStep := by
  intro s hr hf ha
  have hticks : (s.setOneshot true).flush.convTicks = if s.cfg.getLsbD 0 then 63 else 53 := by
    rw [convTicks_eq]
    simp
  rw [step_trigW hr ha hf, microTrigW_eq, State.loadConv, hticks]
  cases s.cfg.getLsbD 0 <;> simp [State.endClock, State.goto, State.busWrite, State.setOneshot, putBit_oneshot_on]

/-- Bits 15 to 1 as a number (R94). -/
theorem toNat_rawCode (d : Half) : (rawCode d).toNat = d.toNat / 2 := by
  simp only [rawCode, BitVec.extractLsb'_toNat, Nat.shiftRight_eq_div_pow]
  omega

theorem respWord_ok (code : RawCode) : respWord .ok code = code.setWidth 18 :=
  (BitVec.setWidth_eq_append (by decide)).symm

/-- The response of a READ by the fault bit of what was read (R92). -/
theorem respWord_of_reading (d : Half) :
    respWord (bif faultBit d then .hardwareFault else .ok) (bif faultBit d then 0#15 else rawCode d) =
      if d.getLsbD 0 then 0x10000#18 else (d >>> 1).setWidth 18 := by
  rw [faultBit]
  cases d.getLsbD 0 with
  | true =>
    rw [cond_true, cond_true, if_pos rfl]
    rfl
  | false =>
    refine (respWord_ok (rawCode d)).trans (BitVec.eq_of_toNat_eq ?_)
    have := d.isLt
    simp [toNat_rawCode, Nat.shiftRight_eq_div_pow]
    omega

/-- Settles O21: the bias bit is cleared before the flush, and a READ is answered by its fault bit. -/
theorem biasDisableStep : Obligations.BiasDisableStep := by
  intro s hr hf ha
  rw [step_biasOffW hr ha hf]
  refine ⟨fun ho => ?_, fun ho => ?_, fun ho => ?_⟩
  · rw [microBiasOffW_read ho, State.raise_eq_respond, cond_respond, ← respWord_of_reading]
    rfl
  · rw [microBiasOffW_setBias ho]
    rfl
  · rw [microBiasOffW_other ho]
    rfl

/-! #### The bus read, the timed waits and the response -/

/-- Settles O20: what the chip drives goes to `RAW16`, to the trace, and with its bit 0 to `FLT`. -/
theorem rawReadStep : Obligations.RawReadStep := fun _ hr hf ha => step_readDone hr ha hf

/-- Settles O17: a tick takes the count down, and the operation decides how the last one ends the wait. -/
theorem warmupTickStep : Obligations.WarmupTickStep := by
  intro s hr hf hp h0
  rw [step_warmup hr hf (pscWraps_true hp)]
  refine ⟨fun h1 => ?_, fun h1 ho => ?_, fun h1 ho => ?_⟩
  · rw [microWarmup_on (by exact h0) (by exact h1)]
    rfl
  · rw [microWarmup_read (by exact h1) (by exact ho)]
    simp [State.endClock, State.goto, State.tickBwt, State.pscWrap, h1]
  · rw [microWarmup_setBias (by exact h1) (by exact ho)]
    simp [State.endClock, State.respond, State.tickBwt, State.pscWrap, h1]
    rfl

/-- Settles O19: a tick takes the count down, and the last one clears `ONESHOT` in the shadow alone. -/
theorem conversionTickStep : Obligations.ConversionTickStep := by
  intro s hr hf hp h0
  rw [step_conv hr hf (pscWraps_true hp)]
  refine ⟨fun h1 => ?_, fun h1 => ?_⟩
  · rw [microConv_on (by exact h0) (by exact h1)]
    rfl
  · rw [microConv_last (by exact h1)]
    simp [State.endClock, State.goto, State.setOneshot, State.tickCtc, State.pscWrap, h1, putBit_oneshot_off]

/-- Settles O22: the step is `takeResponse`, and `S_IDLE` shows `cmd_ready` outside reset. -/
theorem takeStep : Obligations.TakeStep := fun _ hr hf hv =>
  ⟨_, step_take hr hf hv, rfl, fun hr' => decide_eq_true (by rw [now_of_running hr']; rfl)⟩

/-- Settles O54: bits 15 to 1 are all that a logical shift by one leaves. -/
theorem rawCodeIsTheHalf : Obligations.RawCodeIsTheHalf := by
  intro d
  refine ⟨by simp [toNat_rawCode, Nat.shiftRight_eq_div_pow], fun h => ?_⟩
  have heven : d.toNat % 2 = 0 := by simpa [BitVec.getLsbD, Nat.testBit_zero] using h
  rw [toNat_rawCode]
  omega

end Sys2Proof.Machine

/-! ### The dispatch of each command

What `exec` answers in `S_IDLE`, by command (R83), and the frame that follows from it. -/

namespace Sys2Proof.Machine

open Sys2Proof.Safety

theorem exec_configure_valid {s : State} (hf : s.fsm = .idle) (rv zv : Bool) {filt wires : Nat}
    (ha : ValidArguments filt wires) :
    exec (.configure rv zv filt wires) s = .next (s.beginConfigure rv zv filt wires) := by
  rw [exec, execConfigure, whenIdle_idle hf, (argumentsOk_iff filt wires).2 ha, cond_true]

theorem exec_setBias_idle {s : State} (hf : s.fsm = .idle) (en : Bool) :
    exec (.setBias en) s = .next ((s.setOp .setBias).goto (bif en then .biasOnW else .biasOffW)) := by
  rw [exec, execSetBias, whenIdle_idle hf]

theorem exec_read_idle {s : State} (hf : s.fsm = .idle) : exec .read s = .next ((s.setOp .read).goto .fcSet) := by
  rw [exec, execRead, whenIdle_idle hf]

/-- R83, R94 (d): two bits of the byte written, the others kept. -/
theorem putBit_wire3_f50 (wire f50 : Bool) (c : Byte) :
    putBit Config.bitWire3 wire (putBit Config.bitF50 f50 c) =
      (c &&& 0xEE#8) ||| (if wire then 0x10#8 else 0#8) ||| (if f50 then 0x01#8 else 0#8) := by
  have hwire : (if wire then 0x10#8 else 0#8) = fieldAt Config.bitWire3 wire := by cases wire <;> rfl
  have hf50 : (if f50 then 0x01#8 else 0#8) = fieldAt Config.bitF50 f50 := by cases f50 <;> rfl
  rw [hwire, hf50]
  ext i hi
  simp only [BitVec.getElem_or, getElem_fieldAt, Config.bitWire3, Config.bitF50]
  interval_cases i <;> simp [getElem_putBit]

theorem newWire3_eq_true_iff (wires : Nat) : newWire3 wires = true ↔ wires = 3 := by simp [newWire3]

theorem newF50_eq_true_iff (filt : Nat) : newF50 filt = true ↔ filt = 50 := by simp [newF50, Config.f50Polarity]

/-- Settles O7: the two bits, the two calibration registers, and the start of the chain. -/
theorem configureCompletes : Obligations.ConfigureCompletes := by
  intro rv zv filt wires s hf ha
  have hcfg := putBit_wire3_f50 (newWire3 wires) (newF50 filt) s.cfg
  simp only [newWire3_eq_true_iff, newF50_eq_true_iff] at hcfg
  rw [exec_configure_valid hf rv zv ha, ← hcfg]
  cases rv <;> cases zv <;> rfl

/-- Settles O8: a bad argument is rejected, and a rejection writes these three elements. -/
theorem badArgumentIsReported : Obligations.BadArgumentIsReported := fun rv zv _ _ _ hf ha =>
  exec_configure_badArgument hf rv zv ha

/-- Settles O9: `EN` chooses the chain, and the old bias bit is not looked at. -/
theorem setBiasCompletes : Obligations.SetBiasCompletes := by
  intro en s hf
  rw [exec_setBias_idle hf]
  cases en <;> rfl

/-- Settles O10: the bias bit is not looked at. -/
theorem readCompletes : Obligations.ReadCompletes := fun _ hf => exec_read_idle hf

/-- Every way a dispatch can go: a valid CONFIGURE, a bad argument, or a command (or a busy block) that writes `OP` and
`FSM` at most. -/
theorem exec_cases {i : Instr} {s t : State} (h : exec i s = .next t) :
    (∃ rv zv filt wires, i = .configure rv zv filt wires ∧ ValidArguments filt wires ∧
      t = s.beginConfigure rv zv filt wires) ∨
    (∃ rv zv filt wires, i = .configure rv zv filt wires ∧ ¬ ValidArguments filt wires ∧
      t = s.reject .invalidArgument) ∨
    ∃ o f, t = (s.setOp o).goto f := by
  by_cases hf : s.fsm = .idle
  · cases i with
    | configure rv zv filt wires =>
      by_cases ha : ValidArguments filt wires
      · rw [exec_configure_valid hf rv zv ha] at h
        exact .inl ⟨rv, zv, filt, wires, rfl, ha, (Host.Outcome.next.inj h).symm⟩
      · rw [exec_configure_badArgument hf rv zv ha] at h
        exact .inr (.inl ⟨rv, zv, filt, wires, rfl, ha, (Host.Outcome.next.inj h).symm⟩)
    | setBias en =>
      rw [exec_setBias_idle hf] at h
      exact .inr (.inr ⟨_, _, (Host.Outcome.next.inj h).symm⟩)
    | read =>
      rw [exec_read_idle hf] at h
      exact .inr (.inr ⟨_, _, (Host.Outcome.next.inj h).symm⟩)
  · rw [exec_busy hf] at h
    exact .inr (.inr ⟨s.op, s.fsm, (Host.Outcome.next.inj h).symm⟩)

/-- The bits that a CONFIGURE keeps (R115). -/
theorem putBit_wire3_f50_kept (wire f50 : Bool) (c : Byte) :
    putBit Config.bitWire3 wire (putBit Config.bitF50 f50 c) &&& 0xEE#8 = c &&& 0xEE#8 := by
  ext i hi
  interval_cases i <;> simp

/-- Settles O11: a valid CONFIGURE writes `CFG` and the calibration, a rejection writes `RESP`, and no other dispatch
writes any of them. -/
theorem dispatchFrame : Obligations.DispatchFrame := by
  intro i s t h
  obtain ⟨rv, zv, filt, wires, rfl, ha, rfl⟩ | ⟨rv, zv, filt, wires, rfl, ha, rfl⟩ | ⟨o, f, rfl⟩ := exec_cases h
  · exact ⟨rfl, rfl, rfl, rfl, rfl, rfl, rfl, rfl, rfl, rfl, putBit_wire3_f50_kept _ _ _,
      fun _ => ⟨rv, zv, filt, wires, rfl, ha⟩, fun hne => absurd rfl hne⟩
  · exact ⟨rfl, rfl, rfl, rfl, rfl, rfl, rfl, rfl, rfl, rfl, rfl, by simp, fun _ => ⟨rv, zv, filt, wires, rfl, ha⟩⟩
  · exact ⟨rfl, rfl, rfl, rfl, rfl, rfl, rfl, rfl, rfl, rfl, rfl, by simp, by simp⟩

end Sys2Proof.Machine

/-! ### Events, waits and the transition table -/

namespace Sys2Proof.Machine

open Sys2Proof.Safety

/-! #### The lines a state hears -/

/-- R80, R95: outside `S_IDLE` the event of a clock comes from the lines that the state hears. -/
theorem enabledEvent_heard {s : State} (hf : s.fsm ≠ .idle) {l : Lines} (hr : l.rstN = true) :
    enabledEvent (s.withLines l) = enabledEvent (s.withLines (heard s.fsm l)) := by
  cases h : s.fsm with
  | idle => exact absurd h hf
  | _ => simp [enabledEvent, h, hr, heard, Lines.quiet]

/-- R66: besides its word, a command takes from the lines its two side operands. -/
theorem exec_withLines {l l' : Lines} (href : l.cmdRef = l'.cmdRef) (hr0 : l.cmdR0 = l'.cmdR0) (i : Instr) (s : State) :
    afterward (exec i (s.withLines l)) State.endClock = afterward (exec i (s.withLines l')) State.endClock := by
  by_cases hf : s.fsm = .idle
  · cases i with
    | configure rv zv filt wires =>
      by_cases ha : ValidArguments filt wires
      · rw [exec_configure_valid (by exact hf) rv zv ha, exec_configure_valid (by exact hf) rv zv ha]
        simp [State.beginConfigure, newRref, newR0, href, hr0, State.endClock, State.setF50, State.setWire3,
          State.goto, State.setOp]
      · rw [exec_configure_badArgument (by exact hf) rv zv ha, exec_configure_badArgument (by exact hf) rv zv ha]
        rfl
    | setBias en =>
      rw [exec_setBias_idle (by exact hf), exec_setBias_idle (by exact hf)]
      rfl
    | read =>
      rw [exec_read_idle (by exact hf), exec_read_idle (by exact hf)]
      rfl
  · rw [exec_busy (by exact hf), exec_busy (by exact hf)]
    rfl

/-- R60, R95: in `S_IDLE` the step takes the command port from the lines and nothing else. -/
theorem step_idle_heard {s : State} (hf : s.fsm = .idle) {l : Lines} (hr : l.rstN = true) :
    step (s.withLines l) = step (s.withLines (heard .idle l)) := by
  have hr' : (heard .idle l).rstN = true := rfl
  cases hv : l.cmdValid with
  | false =>
    rw [step_wait (by exact hr) (by simp [timed, hf]) (by simpa [Waits, hf] using hv),
      step_wait (by exact hr') (by simp [timed, hf]) (by simpa [Waits, hf, heard] using hv)]
    rfl
  | true =>
    rw [step_accept (by exact hr) (by exact hf) (by exact hv), step_accept (by exact hr') (by exact hf) (by exact hv)]
    show afterward (acceptWord l.cmdWord _) _ = afterward (acceptWord l.cmdWord _) _
    cases hd : decode l.cmdWord with
    | error e =>
      rw [acceptWord_error (by exact hf) hd, acceptWord_error (by exact hf) hd]
      rfl
    | ok i =>
      rw [acceptWord_ok (by exact hf) hd, acceptWord_ok (by exact hf) hd]
      exact exec_withLines (l := l) (l' := heard .idle l) rfl rfl i (s.emit (.accept l.cmdWord))

/-- Settles O23: the event comes from the lines heard, and delivering it looks at the lines in `S_IDLE` only. -/
theorem unheardLinesChangeNothing : Obligations.UnheardLinesChangeNothing := by
  intro s l hr
  by_cases hf : s.fsm = .idle
  · rw [hf]
    exact step_idle_heard hf hr
  · rw [step_eq, step_eq, enabledEvent_heard hf hr, deliver_withLines hf, deliver_withLines hf]

/-! #### Waits -/

/-- A timed wait waits where the prescaler does not wrap (R29, R96). -/
theorem waits_iff_of_timed {s : State} (hf : timed s.fsm = true) : Waits s ↔ s.pscWraps = false := by
  obtain h | h : s.fsm = .warmup ∨ s.fsm = .conv := by simpa [timed] using hf
  · simp [Waits, h, State.pscWraps]
  · simp [Waits, h, State.pscWraps]

/-- R29, R96: a waiting clock counts the prescaler of a timed wait, and ends. -/
theorem step_of_waits {s : State} (hr : s.lines.rstN = true) (hw : Waits s) :
    step s = .next (if timed s.fsm then s.pscCount.endClock else s.endClock) := by
  cases hf : timed s.fsm with
  | true => exact step_count hr hf ((waits_iff_of_timed hf).1 hw)
  | false => exact step_wait hr hf hw

/-- A step that is no wait moves the sequencer or a timer. -/
theorem StepCase.moves_of_not_waits {s u : State} (h : StepCase s u) (hr : s.lines.rstN = true) (hw : ¬ Waits s) :
    u.fsm ≠ s.fsm ∨ u.bwt ≠ s.bwt ∨ u.ctc ≠ s.ctc := by
  cases h with
  | reset h0 => simp [h0] at hr
  | wait _ _ hw' => exact absurd hw' hw
  | count _ hf hp => exact absurd ((waits_iff_of_timed hf).2 hp) hw
  | setBias en _ hf => cases en <;> simp [hf]
  | warmupOn => exact .inr (.inl (by simp))
  | convOn => exact .inr (.inr (by simp))
  | _ => exact .inl (by simp_all)

/-- Settles O24: a wait counts or does nothing, and every other step case moves the sequencer or a timer. -/
theorem staysExactlyWhileWaiting : Obligations.StaysExactlyWhileWaiting := by
  intro s hr
  refine ⟨fun hw => ?_, fun _ hw t h => ?_⟩
  · rw [step_of_waits hr hw]
    cases timed s.fsm <;> rfl
  · obtain ⟨u, hu, rfl⟩ := step_cases h
    exact hu.moves_of_not_waits hr hw

/-! #### The transition table -/

/-- The successor of an accepted word, by its command (R82). -/
theorem acceptSuccessor_configure {w : Word} {rv zv : Bool} {filt wires : Nat}
    (h : decode w = .ok (.configure rv zv filt wires)) :
    acceptSuccessor w = if argumentsOk filt wires then .cfgW else .resp := by simp [acceptSuccessor, h]

theorem acceptSuccessor_setBias {w : Word} {en : Bool} (h : decode w = .ok (.setBias en)) :
    acceptSuccessor w = bif en then .biasOnW else .biasOffW := by cases en <;> simp [acceptSuccessor, h]

theorem acceptSuccessor_read {w : Word} (h : decode w = .ok .read) : acceptSuccessor w = .fcSet := by
  simp [acceptSuccessor, h]

theorem acceptSuccessor_error {w : Word} {e : DecodeError} (h : decode w = .error e) : acceptSuccessor w = .resp := by
  simp [acceptSuccessor, h]

section
variable {s : State} (hr : s.lines.rstN = true)
include hr

theorem enabledEvent_accept (hf : s.fsm = .idle) (hv : s.lines.cmdValid = true) :
    enabledEvent s = .accept s.lines.cmdWord := by simp [enabledEvent, hr, hf, hv]

theorem enabledEvent_tick {f : Fsm} (hf : s.fsm = f) (ht : timed f = true) (hp : s.pscWraps = true) :
    enabledEvent s = .tick := by
  cases f <;> simp_all [enabledEvent, timed]

theorem enabledEvent_writeDone {f : Fsm} (hf : s.fsm = f) (hb : (inTransaction f && f != .rtdR) = true)
    (ha : s.lines.busAck = true) : enabledEvent s = .writeDone := by
  cases f <;> simp_all [enabledEvent, inTransaction]

theorem enabledEvent_readDone (hf : s.fsm = .rtdR) (ha : s.lines.busAck = true) :
    enabledEvent s = .readDone s.lines.busRdata := by simp [enabledEvent, hr, hf, ha]

theorem enabledEvent_take (hf : s.fsm = .resp) (hv : s.lines.respReady = true) : enabledEvent s = .take := by
  simp [enabledEvent, hr, hf, hv]

end

/-- R82: a step that is no wait is a row of the table. -/
theorem StepCase.tableRow {s u : State} (h : StepCase s u) (hr : s.lines.rstN = true) (hw : ¬ Waits s) :
    TableRow s (enabledEvent s) u.endClock := by
  cases h with
  | reset h0 => simp [h0] at hr
  | wait _ _ hw' => exact absurd hw' hw
  | count _ hf hp => exact absurd ((waits_iff_of_timed hf).2 hp) hw
  | configure rv zv filt wires _ hf hv hd ha =>
    rw [enabledEvent_accept hr hf hv]
    exact .accept hf (by simp [acceptSuccessor_configure hd, ha]) (by simp [emitted])
  | badArgument rv zv filt wires _ hf hv hd ha =>
    rw [enabledEvent_accept hr hf hv]
    exact .accept hf (by simp [acceptSuccessor_configure hd, ha]) (by simp [emitted])
  | setBias en _ hf hv hd =>
    rw [enabledEvent_accept hr hf hv]
    exact .accept hf (acceptSuccessor_setBias hd).symm (by simp [emitted])
  | read _ hf hv hd =>
    rw [enabledEvent_accept hr hf hv]
    exact .accept hf (acceptSuccessor_read hd).symm (by simp [emitted])
  | illegal e _ hf hv hd =>
    rw [enabledEvent_accept hr hf hv]
    exact .accept hf (acceptSuccessor_error hd).symm (by simp [emitted])
  | cfgW _ hf ha =>
    rw [enabledEvent_writeDone hr hf rfl ha]
    exact .cfgW hf rfl (by simp [emitted])
  | fcSet _ hf ha =>
    rw [enabledEvent_writeDone hr hf rfl ha]
    exact .fcSet hf rfl (by simp [emitted, putBit_fclr_on])
  | fcClrRead _ hf ha ho =>
    rw [enabledEvent_writeDone hr hf rfl ha]
    exact .fcClrRead hf ho rfl (by simp [emitted, putBit_fclr_off])
  | fcClrConfigure _ hf ha ho =>
    rw [enabledEvent_writeDone hr hf rfl ha]
    exact .fcClrConfigure hf ho rfl (by simp [emitted, putBit_fclr_off])
  | fcClrInit _ hf ha ho =>
    rw [enabledEvent_writeDone hr hf rfl ha]
    exact .fcClrInit hf ho rfl (by simp [emitted, putBit_fclr_off])
  | biasOnW _ hf ha =>
    rw [enabledEvent_writeDone hr hf rfl ha]
    exact .biasOnW hf rfl (by simp [emitted, putBit_bias_on, warmupTicks_eq])
  | warmupOn _ hf hp h0 h1 =>
    rw [enabledEvent_tick hr hf rfl hp]
    exact .warmupOn hf (by bv_omega) hf (by simp [emitted])
  | warmupRead _ hf hp h1 ho =>
    rw [enabledEvent_tick hr hf rfl hp]
    exact .warmupRead hf (by simp [h1]) ho rfl (by simp [emitted])
  | warmupSetBias _ hf hp h1 ho =>
    rw [enabledEvent_tick hr hf rfl hp]
    exact .warmupSetBias hf (by simp [h1]) ho rfl (by simp [emitted])
  | trigW _ hf ha =>
    rw [enabledEvent_writeDone hr hf rfl ha]
    exact .trigW hf rfl (by simp [emitted, putBit_oneshot_on, convTicks_eq, State.f50, Config.bitF50])
  | convOn _ hf hp h0 h1 =>
    rw [enabledEvent_tick hr hf rfl hp]
    exact .convOn hf (by bv_omega) hf (by simp [emitted])
  | convLast _ hf hp h1 =>
    rw [enabledEvent_tick hr hf rfl hp]
    exact .convLast hf (by simp [h1]) rfl (by simp [emitted])
  | rtdR _ hf ha =>
    rw [enabledEvent_readDone hr hf ha]
    exact .rtdR hf rfl (by simp [emitted])
  | biasOffRead _ hf ha ho =>
    rw [enabledEvent_writeDone hr hf rfl ha]
    exact .biasOffW hf (by simp) (by simp [emitted, putBit_bias_off])
  | biasOffSetBias _ hf ha ho =>
    rw [enabledEvent_writeDone hr hf rfl ha]
    exact .biasOffW hf rfl (by simp [emitted, putBit_bias_off])
  | take _ hf hv =>
    rw [enabledEvent_take hr hf hv]
    exact .resp hf rfl (by simp [emitted])

/-- Settles O25: reset goes to the start of the initialisation sequence, a wait stays, and any other step case is a
row. -/
theorem stepsFollowTheTransitionTable : Obligations.StepsFollowTheTransitionTable := by
  intro s t _ h
  refine ⟨fun hr => ?_, fun hr hw => ?_, fun hr hw => ?_⟩
  · rw [step_reset hr] at h
    cases h
    exact ⟨rfl, rfl, by simp [emitted]⟩
  · rw [step_of_waits hr hw] at h
    cases h
    cases timed s.fsm <;> exact ⟨rfl, by simp [emitted]⟩
  · obtain ⟨u, hu, rfl⟩ := step_cases h
    exact hu.tableRow hr hw

/-! #### No stop -/

theorem afterward_answers {o : Host.Outcome State Fault Refusal} (h : ∃ u, o = .next u) (f : State → State) :
    ∃ t, afterward o f = .next t := by
  obtain ⟨u, rfl⟩ := h
  exact ⟨f u, rfl⟩

/-- A dispatch never stops, whatever the command and the state (R83). -/
theorem exec_answers (i : Instr) (s : State) : ∃ u, exec i s = .next u := by
  by_cases hf : s.fsm = .idle
  · cases i with
    | configure rv zv filt wires =>
      rw [exec, execConfigure]
      exact ⟨_, whenIdle_idle hf _⟩
    | setBias en => exact ⟨_, exec_setBias_idle hf en⟩
    | read => exact ⟨_, exec_read_idle hf⟩
  · exact ⟨s, exec_busy hf i⟩

/-- Nor does an acceptance: an illegal word is answered (R164). -/
theorem acceptWord_answers {s : State} (hf : s.fsm = .idle) (w : Word) : ∃ u, acceptWord w s = .next u := by
  cases hd : decode w with
  | error e => exact ⟨_, acceptWord_error hf hd⟩
  | ok i => exact acceptWord_ok hf hd ▸ exec_answers i _

section
variable {s : State}

theorem microFcClr_answers (h : opAllowed .fcClr s.op = true) : ∃ u, microFcClr s = .next u := by
  cases ho : s.op with
  | init => exact ⟨_, microFcClr_init ho⟩
  | configure => exact ⟨_, microFcClr_configure ho⟩
  | read => exact ⟨_, microFcClr_read ho⟩
  | setBias => simp [ho, opAllowed] at h

theorem microBiasOffW_answers (h : opAllowed .biasOffW s.op = true) : ∃ u, microBiasOffW s = .next u := by
  cases ho : s.op with
  | read => exact ⟨_, microBiasOffW_read ho⟩
  | setBias => exact ⟨_, microBiasOffW_setBias ho⟩
  | init => simp [ho, opAllowed] at h
  | configure => simp [ho, opAllowed] at h

theorem microWarmup_answers (h : opAllowed .warmup s.op = true) (h0 : s.bwt ≠ 0#4) : ∃ u, microWarmup s = .next u := by
  by_cases h1 : s.bwt = 1#4
  · cases ho : s.op with
    | read => exact ⟨_, microWarmup_read h1 ho⟩
    | setBias => exact ⟨_, microWarmup_setBias h1 ho⟩
    | init => simp [ho, opAllowed] at h
    | configure => simp [ho, opAllowed] at h
  · exact ⟨_, microWarmup_on h0 h1⟩

theorem microConv_answers (h0 : s.ctc ≠ 0#6) : ∃ u, microConv s = .next u := by
  by_cases h1 : s.ctc = 1#6
  · exact ⟨_, microConv_last h1⟩
  · exact ⟨_, microConv_on h0 h1⟩

/-- R96: a bus state that does not wait has its acknowledge. -/
theorem busAck_of_not_waits (hw : ¬ Waits s) {f : Fsm} (hf : s.fsm = f) (hb : inTransaction f = true) :
    s.lines.busAck = true := by
  cases f <;> simp_all [Waits, inTransaction]

/-- R29, R96: a timed wait that does not wait has its tick. -/
theorem pscWraps_of_not_waits (hw : ¬ Waits s) {f : Fsm} (hf : s.fsm = f) (ht : timed f = true) : s.pscWraps = true := by
  simpa [waits_iff_of_timed (hf ▸ ht : timed s.fsm = true)] using hw

end

/-- Settles O31: reset and waits go on from every state; otherwise the operations that the invariant allows in a state
are those its step provides for, and a timer is not 0 in its wait. -/
theorem invariantStatesNeverStop : Obligations.InvariantStatesNeverStop := by
  intro s hi
  have hop := hi.op
  cases hr : s.lines.rstN with
  | false => exact ⟨_, step_reset hr⟩
  | true =>
    by_cases hw : Waits s
    · exact ⟨_, step_of_waits hr hw⟩
    cases hf : s.fsm with
    | idle =>
      rw [step_accept hr hf (by simpa [Waits, hf] using hw)]
      exact afterward_answers (acceptWord_answers hf _) _
    | cfgW => exact ⟨_, step_cfgW hr (busAck_of_not_waits hw hf rfl) hf⟩
    | fcSet => exact ⟨_, step_fcSet hr (busAck_of_not_waits hw hf rfl) hf⟩
    | fcClr =>
      rw [step_fcClr hr (busAck_of_not_waits hw hf rfl) hf]
      exact afterward_answers (microFcClr_answers (hf ▸ hop)) _
    | biasOnW => exact ⟨_, step_biasOnW hr (busAck_of_not_waits hw hf rfl) hf⟩
    | warmup =>
      have h0 : s.bwt ≠ 0#4 := (ne_zero_iff_of_rests (fun hf => (hi.bwtRuns hf).1) hi.bwtRests).2 hf
      rw [step_warmup hr hf (pscWraps_of_not_waits hw hf rfl)]
      exact afterward_answers (microWarmup_answers (s := s.pscWrap) (hf ▸ hop) h0) _
    | trigW => exact ⟨_, step_trigW hr (busAck_of_not_waits hw hf rfl) hf⟩
    | conv =>
      have h0 : s.ctc ≠ 0#6 := (ne_zero_iff_of_rests (fun hf => (hi.ctcRuns hf).1) hi.ctcRests).2 hf
      rw [step_conv hr hf (pscWraps_of_not_waits hw hf rfl)]
      exact afterward_answers (microConv_answers (s := s.pscWrap) h0) _
    | rtdR => exact ⟨_, step_readDone hr (busAck_of_not_waits hw hf rfl) hf⟩
    | biasOffW =>
      rw [step_biasOffW hr (busAck_of_not_waits hw hf rfl) hf]
      exact afterward_answers (microBiasOffW_answers (hf ▸ hop)) _
    | resp => exact ⟨_, step_take hr hf (by simpa [Waits, hf] using hw)⟩

end Sys2Proof.Machine

/-! ### Whole timed waits -/

namespace Sys2Proof.Machine

open Sys2Proof.Safety

/-- Settles O46: before the last clock the sequencer is inside the warm-up, and the last clock ends it. -/
theorem warmupTakesTenTicks : Obligations.WarmupTakesTenTicks := by
  intro s ws rest hclk hf hb hp hin he
  have hten : s.bwt.toNat = 10 := by rw [hb]; rfl
  rw [← hten] at he ⊢
  refine ⟨fun n hn => ?_, fun ho => ?_, fun ho => ?_⟩
  · obtain ⟨b, p, hrun, -, -⟩ :=
      run_in_warmup hf (by omega) (rstN_of_elapse hin he (Nat.le_of_lt hn)) (by rwa [hp])
    exact ⟨_, hrun, hf⟩
  · exact run_warmup_read hf ho hp hclk (by omega) hin he
  · exact run_warmup_setBias hf ho hp hclk (by omega) hin he

/-- Settles O47: before the last clock the sequencer is inside the conversion wait, and the last clock ends it. -/
theorem conversionTakesItsTicks : Obligations.ConversionTakesItsTicks := by
  intro s ws rest hclk hf hc hp hin he
  have hpos : 0 < s.ctc.toNat := by bv_omega
  refine ⟨fun n hn => ?_, run_conv_all hf hp hclk hpos hin he⟩
  obtain ⟨c, p, hrun, -, -⟩ :=
    run_in_conv hf (by omega) (rstN_of_elapse hin he (Nat.le_of_lt hn)) (by rwa [hp])
  exact ⟨_, hrun, hf⟩

end Sys2Proof.Machine

/-! ### A quarter of a binary64 pattern

Division by 4.0 takes 2 from the exponent, and a number whose exponent field is at least 3 stays normal. -/

namespace Sys2Proof.Machine

namespace F64

/-- A pattern is its three fields packed. -/
theorem packFields_fields (x : Bits64) :
    packFields (x.getLsbD 63) (x.extractLsb' 52 11).toNat (x.extractLsb' 0 52).toNat = x := by
  apply BitVec.eq_of_toNat_eq
  rw [toNat_packFields _ (BitVec.isLt _) (BitVec.isLt _), toNat_eq_fields x]
  cases x.getLsbD 63
  · simp
  · simp
    omega

/-- Two less in the exponent field is the pattern less `2 * 2^52`. -/
theorem packFields_exponent_sub_two {x : Bits64} (h : 3 ≤ (x.extractLsb' 52 11).toNat) :
    packFields (x.getLsbD 63) ((x.extractLsb' 52 11).toNat - 2) (x.extractLsb' 0 52).toNat =
      x - 0x0020000000000000#64 := by
  have htwo : (0x0020000000000000#64).toNat = 2 * 2 ^ 52 := rfl
  have hexp : (x.extractLsb' 52 11).toNat < 2 ^ 11 := BitVec.isLt _
  have hx := congrArg BitVec.toNat (packFields_fields x)
  rw [toNat_packFields _ hexp (BitVec.isLt _)] at hx
  have hmul : 2 * 2 ^ 52 ≤ ((if x.getLsbD 63 then 2 ^ 11 else 0) + (x.extractLsb' 52 11).toNat) * 2 ^ 52 :=
    Nat.mul_le_mul_right _ (by omega)
  have hle : 0x0020000000000000#64 ≤ x := by
    rw [BitVec.le_def, htwo, ← hx]
    exact Nat.le_add_right_of_le hmul
  apply BitVec.eq_of_toNat_eq
  rw [toNat_packFields _ (by omega) (BitVec.isLt _), BitVec.toNat_sub_of_le hle, htwo, ← hx,
    ← Nat.add_sub_assoc (by omega), Nat.sub_mul, Nat.sub_add_comm hmul]

theorem toBits_of_normal (nanBits : Bits64) (neg : Bool) {f : Nat} (e : Int) :
    toBits nanBits (.fin neg (2 ^ 52 + f) e) = packFields neg (e + 1075).toNat f := by
  rw [toBits, if_neg (by omega), Nat.add_sub_cancel_left]

theorem ofBits_four : ofBits 0x4010000000000000#64 = .fin false (2 ^ 52) (-50) := by decide

/-- Division by 4.0 of a normal number that stays normal is exact. -/
theorem div_four {neg : Bool} {f : Nat} {e : Int} (hf : f < 2 ^ 52) (hlo : -1072 ≤ e) (hhi : e ≤ 973) :
    (F64.fin neg (2 ^ 52 + f) e).div (.fin false (2 ^ 52) (-50)) = .fin neg (2 ^ 52 + f) (e - 2) := by
  rw [div_finite neg false _ _ _ (by decide), Bool.xor_false,
    round_normal neg (by omega) (by omega) (by omega) (by omega)]
  congr 1
  omega

end F64

open F64

/-- A normal pattern: the exponent field goes down by two. -/
theorem fdiv64_four_normal {x : Bits64} (h3 : 3 ≤ (x.extractLsb' 52 11).toNat)
    (hlt : (x.extractLsb' 52 11).toNat < 2047) :
    fdiv64 x 0x4010000000000000#64 = x - 0x0020000000000000#64 := by
  have hexp : (((x.extractLsb' 52 11).toNat : Int) - 1075 - 2 + 1075).toNat = (x.extractLsb' 52 11).toNat - 2 := by
    omega
  rw [fdiv64, ofBits_four, ofBits_normal (by omega) (by omega), div_four (BitVec.isLt _) (by omega) (by omega),
    toBits_of_normal, hexp, packFields_exponent_sub_two h3]

theorem fdiv64_four_inf {x : Bits64} (he : (x.extractLsb' 52 11).toNat = 2047)
    (hf : (x.extractLsb' 0 52).toNat = 0) : fdiv64 x 0x4010000000000000#64 = x := by
  have hx := packFields_fields x
  rw [he, hf] at hx
  rw [fdiv64, ofBits_four, ofBits_special he, if_pos hf]
  simpa [F64.div, toBits] using hx

/-- Every value of the free pattern of log entry 5 gives a NaN. -/
theorem asNanBits_isNan (v : Bits64) :
    ((asNanBits v).extractLsb' 52 11).toNat = 2047 ∧ ((asNanBits v).extractLsb' 0 52).toNat ≠ 0 := by
  have hf : (v.extractLsb' 0 52).toNat < 2 ^ 52 := BitVec.isLt _
  rw [asNanBits, exponent_packFields _ (by omega) (by split <;> omega),
    fraction_packFields _ (by omega) (by split <;> omega)]
  exact ⟨rfl, by split <;> omega⟩

theorem fdiv64_four_nan {x : Bits64} (he : (x.extractLsb' 52 11).toNat = 2047)
    (hf : (x.extractLsb' 0 52).toNat ≠ 0) :
    fdiv64 x 0x4010000000000000#64 = asNanBits (Config.nanQuotient x 0x4010000000000000#64) := by
  rw [fdiv64, ofBits_four, ofBits_special he, if_neg hf]
  rfl

/-- Settles O53: the three kinds of pattern. -/
theorem quarterOfTheReference : Obligations.QuarterOfTheReference := by
  refine ⟨fun x => fdiv64_four_normal, fun x he hf => ?_, fun x he hf => ?_⟩
  · exact fdiv64_four_inf (by rw [he]; rfl) (by rw [hf]; rfl)
  · obtain ⟨hexp, hfrac⟩ := asNanBits_isNan (Config.nanQuotient x 0x4010000000000000#64)
    rw [fdiv64_four_nan (by rw [he]; rfl) fun h => hf (BitVec.eq_of_toNat_eq h)]
    exact ⟨BitVec.eq_of_toNat_eq hexp, fun h => hfrac (by rw [h]; rfl)⟩

end Sys2Proof.Machine

/-! ### Whole commands: CONFIGURE, a rejected command, and the initialisation

A valid CONFIGURE and the initialisation go through the same three bus writes (`State.configured`), and every command
ends with its response taken (`run_response`). -/

namespace Sys2Proof.Machine

open Sys2Proof.Safety

/-! #### The three configuration writes -/

/-- Clearing a bit that was clear before it was set gives the byte back. -/
theorem putBit_false_putBit_true {i : Nat} {b : Byte} (h : b.getLsbD i = false) :
    putBit i false (putBit i true b) = b := by
  ext j hj
  simp only [getElem_putBit]
  split
  · next hij => rw [← BitVec.getLsbD_eq_getElem, ← hij, h]
  · rfl

/-- The state with the shadow flushed and the fault-clear strobe given (R84 to R86), and the lines `rest` to come. -/
def State.configured (s : State) (rest : List Lines) : State :=
  { s with
    flt := false
    lastw := s.cfg
    lastwValid := true
    inputs := rest
    trace := s.trace ++ [.write s.cfg, .write (s.cfg ||| 0x02#8), .write s.cfg] }

/-- The writes of R84, R85 and R86 leave the shadow as it was, if `FCLR` was clear. -/
theorem flush_after_microFcSet_microCfgW {s : State} (hclr : s.fclr = false) (ls rest : List Lines) :
    (((microFcSet (microCfgW (s.setInputs ls))).setInputs rest).setFclr false).flush =
      (s.configured rest).goto .fcClr := by
  have hcfg : putBit Config.bitFclr false (s.cfg ||| 0x02#8) = s.cfg := putBit_false_putBit_true hclr
  simp [State.configured, State.busWrite, State.goto, State.setFclr, State.clearFlt, State.setInputs, putBit_fclr_on,
    hcfg]

section
variable {s : State} {w₁ w₂ w₃ rest : List Lines} {a₁ a₂ a₃ : Lines} (hf : s.fsm = .cfgW)
  (hin : s.inputs = transact w₁ a₁ ++ (transact w₂ a₂ ++ (transact w₃ a₃ ++ rest)))
  (h₁ : BusAnswer w₁ a₁) (h₂ : BusAnswer w₂ a₂)
include hf hin h₁ h₂

theorem run_cfgW_fcSet : run (w₁.length + 1 + (w₂.length + 1)) s =
    .next (microFcSet (microCfgW (s.setInputs (transact w₃ a₃ ++ rest)))) :=
  run_trans (run_cfgW hf hin h₁) (run_fcSet rfl rfl h₂)

variable (h₃ : BusAnswer w₃ a₃) (hclr : s.fclr = false)
include h₃ hclr

/-- R110: the writes of a CONFIGURE end with its response loaded. -/
theorem run_configuration_configure (ho : s.op = .configure) :
    run (w₁.length + 1 + (w₂.length + 1) + (w₃.length + 1)) s = .next ((s.configured rest).respond .ok 0#15) := by
  rw [run_trans (run_cfgW_fcSet hf hin h₁ h₂) (run_fcClr_configure rfl ho rfl h₃),
    flush_after_microFcSet_microCfgW hclr]
  rfl

/-- R192: the writes of the initialisation end idle. -/
theorem run_configuration_init (ho : s.op = .init) :
    run (w₁.length + 1 + (w₂.length + 1) + (w₃.length + 1)) s = .next ((s.configured rest).goto .idle) := by
  rw [run_trans (run_cfgW_fcSet hf hin h₁ h₂) (run_fcClr_init rfl ho rfl h₃),
    flush_after_microFcSet_microCfgW hclr]
  rfl

end

/-- Settles O52: the configuration writes from the reset values, with no command in flight. -/
theorem initialisationSequence : Obligations.InitialisationSequence := by
  intro p a₁ a₂ a₃ w₁ w₂ w₃ rest c0 h₁ h₂ h₃ hc0
  obtain ⟨-, hclr, -⟩ := resetWith_cfg_rests p rest
  have hcfg : (State.resetWith p rest).cfg = c0 := (resetWith_cfg p rest).trans hc0.symm
  have hrun := run_configuration_init (s := State.resetWith p _) (rest := rest) rfl rfl h₁ h₂ h₃ (by exact hclr) rfl
  subst hcfg
  simp only [List.append_assoc]
  rw [show 3 + w₁.length + w₂.length + w₃.length = w₁.length + 1 + (w₂.length + 1) + (w₃.length + 1) by omega]
  exact ⟨_, hrun, rfl, rfl, rfl, rfl, rfl, rfl, rfl, rfl, rfl, rfl, rfl⟩

/-! #### The end of a command -/

/-- R93, R168: the host takes the response that was loaded, and the block is idle. -/
theorem run_response {s : State} {st : Status} {code : RawCode} {h rest : List Lines} {k : Lines}
    (hin : s.inputs = transact h k ++ rest) (hk : HostTakes h k) :
    run (h.length + 1) (s.respond st code) = .next { s with
      resp := 0#18, raw16 := 0#16, op := .init, fsm := .idle, inputs := rest
      trace := s.trace ++ [.resp st.code code] } := by
  rw [run_taken (s := s.respond st code) rfl hin hk]
  simp [State.takeResponse, State.setInputs]

/-- In `S_IDLE` the elements that taking a response clears (R93) are already at rest. -/
theorem takeResponse_elements_of_idle {s : State} (hi : Inv s) (hf : s.fsm = .idle) :
    s.op = .init ∧ s.raw16 = 0#16 ∧ s.resp = 0#18 :=
  ⟨by simpa [opAllowed, hf] using hi.op, hi.rawRests (by simp [hf]) (by simp [hf]), hi.respRests (by simp [hf])⟩

/-- R111, R164: a rejection at acceptance, and the response taken. -/
theorem run_rejected {s : State} {c k : Lines} {h rest : List Lines} {st : Status} (hi : Inv s) (hf : s.fsm = .idle)
    (hr : c.rstN = true) (hv : c.cmdValid = true) (hin : s.inputs = c :: (transact h k ++ rest)) (hk : HostTakes h k)
    (hrej : acceptWord c.cmdWord s = .next ((s.emit (.accept c.cmdWord)).reject st)) :
    run (2 + h.length) s =
      .next { s with inputs := rest, trace := s.trace ++ [.accept c.cmdWord, .resp st.code 0#15] } := by
  obtain ⟨hop, hraw, hresp⟩ := takeResponse_elements_of_idle hi hf
  have hlines : s.lines = c := lines_of_cons hin
  have hstep : step s = .next (((s.emit (.accept c.cmdWord)).setOp .init).endClock.respond st 0#15) := by
    rw [step_accept (hlines ▸ hr) hf (hlines ▸ hv), hlines, hrej]
    rfl
  rw [show 2 + h.length = 1 + (h.length + 1) by omega,
    run_trans (run_one hstep) (run_response (congrArg List.tail hin) hk)]
  simp [State.setOp, State.emit, State.endClock, hop, hraw, hresp, hf]

/-- Settles O51: both kinds are rejected at acceptance, by the decoder and by the argument tests. -/
theorem rejectedCommandNetEffect : Obligations.RejectedCommandNetEffect := by
  intro s c k h rest hi hf hr hv hk hin
  rw [List.append_assoc] at hin
  refine ⟨fun hill => ?_, fun rv zv filt wires hd ha => ?_⟩
  · obtain ⟨e, hd⟩ := (illegalWord_iff_decode_error _).1 hill
    exact run_rejected (st := .illegalCommand) hi hf hr hv hin hk (acceptWord_error hf hd)
  · refine run_rejected (st := .invalidArgument) hi hf hr hv hin hk ?_
    rw [acceptWord_ok hf hd, exec_configure_badArgument (by exact hf) rv zv ha]

/-! #### A valid CONFIGURE -/

theorem wf_configure_of_valid (rv zv : Bool) {filt wires : Nat} (ha : ValidArguments filt wires) :
    (Instr.configure rv zv filt wires).wf = true := by
  obtain ⟨hwires, hfilt⟩ := ha
  simp only [Instr.wf, fitsByte, Bool.and_eq_true, decide_eq_true_eq]
  omega

/-- In `S_IDLE` the bits that a CONFIGURE keeps (R115) are the bias bit and zeros. -/
theorem cfg_kept_of_idle {s : State} (hi : Inv s) (hf : s.fsm = .idle) : s.cfg &&& 0xEE#8 = s.cfg &&& 0x80#8 := by
  obtain ⟨h2, h3, h6⟩ := (and_reservedMask_eq_zero_iff s.cfg).1 hi.reserved
  have h1 : s.cfg[1] = false := by simpa [State.fclr_eq, hf] using hi.fclr
  have h5 : s.cfg[5] = false := by simpa [State.oneshot_eq, hf] using hi.oneshot
  ext j hj
  interval_cases j <;> simp [h1, h2, h3, h5, h6]

/-- The clock that accepts a valid CONFIGURE in an idle block (R83). -/
theorem step_accept_configure {s : State} {c : Lines} {ls : List Lines} {w : Word} {rv zv : Bool} {filt wires : Nat}
    (hi : Inv s) (hf : s.fsm = .idle) (hin : s.inputs = c :: ls) (hc : Offers c w)
    (hd : decode w = .ok (.configure rv zv filt wires)) (ha : ValidArguments filt wires) :
    step s = .next { s with
      cfg := (s.cfg &&& 0x80#8) ||| (if wires = 3 then 0x10#8 else 0#8) ||| (if filt = 50 then 0x01#8 else 0#8)
      calRref := if rv then c.cmdRef else 0x4079000000000000#64
      calR0 := if zv then c.cmdR0 else fdiv64 (if rv then c.cmdRef else 0x4079000000000000#64) 0x4010000000000000#64
      op := .configure
      fsm := .cfgW
      inputs := ls
      trace := s.trace ++ [.accept w] } := by
  obtain ⟨hr, hv, rfl⟩ := hc
  obtain rfl : s.lines = c := lines_of_cons hin
  rw [stepRunsTheDecodedCommand s _ hf hr hv hd, configureCompletes rv zv filt wires _ (by exact hf) ha, afterward_next,
    State.emit_cfg, cfg_kept_of_idle hi hf]
  simp only [State.endClock, State.emit_inputs, hin, List.tail_cons]
  rfl

/-- Settles O49: acceptance, the three writes of the chain, and the response taken. -/
theorem configureNetEffect : Obligations.ConfigureNetEffect := by
  intro s c a₁ a₂ a₃ k w₁ w₂ w₃ h rest rv zv filt wires b hi hf hc ha hb h₁ h₂ h₃ hk hin
  simp only [List.append_assoc] at hin
  have hclr : b.getLsbD 1 = false := by
    rw [hb]
    split <;> split <;> simp
  have haccept := step_accept_configure hi hf hin hc (decodeOfEncode _ (wf_configure_of_valid rv zv ha)) ha
  rw [← hb] at haccept
  have hwrites := run_trans (run_one haccept) (run_configuration_configure rfl rfl h₁ h₂ h₃ (by exact hclr) rfl)
  obtain ⟨hop, hraw, hresp⟩ := takeResponse_elements_of_idle hi hf
  rw [show 5 + w₁.length + w₂.length + w₃.length + h.length =
    1 + (w₁.length + 1 + (w₂.length + 1) + (w₃.length + 1)) + (h.length + 1) by omega]
  refine (run_trans hwrites (run_response rfl hk)).trans (congrArg Host.Outcome.next ?_)
  simp [State.configured, hop, hraw, hresp, hf, Status.code]

end Sys2Proof.Machine

/-! ### Whole commands: SET_BIAS

Both chains (R120) begin with the dispatch of R83 and end with `run_response`; the bias-on chain waits for the warm-up
in between. -/

namespace Sys2Proof.Machine

open Sys2Proof.Safety

/-- The clock that accepts a SET_BIAS in an idle block (R83). -/
theorem step_accept_setBias {s : State} {c : Lines} {ls : List Lines} {en : Bool} (hf : s.fsm = .idle)
    (hin : s.inputs = c :: ls) (hc : Offers c (encode (.setBias en))) :
    step s = .next { s with
      op := .setBias
      fsm := if en then .biasOnW else .biasOffW
      inputs := ls
      trace := s.trace ++ [.accept (encode (.setBias en))] } := by
  obtain ⟨hr, hv, hw⟩ := hc
  obtain rfl : s.lines = c := lines_of_cons hin
  rw [stepRunsTheDecodedCommand s _ hf hr hv (hw ▸ decodeOfEncode (.setBias en) rfl), hw,
    setBiasCompletes en _ (by exact hf), afterward_next]
  simp [State.endClock, State.emit, hin]

/-- R87, R88: the bias-on chain of a SET_BIAS, from its write to its response. -/
theorem run_biasOn_setBias {s : State} {w t rest : List Lines} {a : Lines} (hf : s.fsm = .biasOnW)
    (ho : s.op = .setBias) (hclk : 0 < s.params.clkKHz) (hin : s.inputs = transact w a ++ (t ++ rest))
    (hb : BusAnswer w a) (he : Elapse (10 * s.params.clkKHz) t) :
    run (w.length + 1 + 10 * s.params.clkKHz) s = .next (State.respond { s with
      cfg := s.cfg ||| 0x80#8
      bwt := 0#4
      psc := 0
      lastw := s.cfg ||| 0x80#8
      lastwValid := true
      inputs := rest
      trace := s.trace ++ [.write (s.cfg ||| 0x80#8), .delay 10] } .ok 0#15) := by
  obtain ⟨-, -, hwarmup⟩ := warmupTakesTenTicks (microBiasOnW (s.setInputs (t ++ rest))) t rest hclk rfl rfl rfl rfl he
  rw [List.append_cons]
  exact run_trans (run_biasOnW hf hin hb) (hwarmup ho)

/-- Settles O50: acceptance, the chain that `EN` chooses, and the response taken; in `S_IDLE` every element that the
chain leaves at rest was at rest before. -/
theorem setBiasNetEffect : Obligations.SetBiasNetEffect := by
  intro s c a k w t h rest hi hf hb hk
  obtain ⟨hop, hraw, hresp⟩ := takeResponse_elements_of_idle hi hf
  refine ⟨fun hc he hin => ?_, fun hc hin => ?_⟩
  · simp only [List.append_assoc] at hin
    have hbwt : s.bwt = 0#4 := hi.bwtRests (by simp [hf])
    have hpsc : s.psc = 0 := hi.pscRests (by simp [hf]) (by simp [hf])
    have hchain := run_trans (run_one (step_accept_setBias (en := true) hf hin hc))
      (run_biasOn_setBias rfl rfl hi.clk rfl hb he)
    rw [show 3 + w.length + 10 * s.params.clkKHz + h.length =
      1 + (w.length + 1 + 10 * s.params.clkKHz) + (h.length + 1) by omega]
    refine (run_trans hchain (run_response rfl hk)).trans (congrArg Host.Outcome.next ?_)
    simp [hop, hraw, hresp, hbwt, hpsc, hf, Status.code, encode, bitWord]
  · simp only [List.append_assoc] at hin
    have hchain := run_trans (run_one (step_accept_setBias (en := false) hf hin hc))
      (run_biasOffW_setBias rfl rfl rfl hb)
    rw [show 3 + w.length + h.length = 1 + (w.length + 1) + (h.length + 1) by omega]
    refine (run_trans hchain (run_response rfl hk)).trans (congrArg Host.Outcome.next ?_)
    simp [State.setBias, State.busWrite, putBit_bias_off, hop, hraw, hresp, hf, Status.code, encode, bitWord]

end Sys2Proof.Machine

/-! ### Whole commands: READ

The chain of R130 in four parts: the fault-clear strobe, the warm-up, the conversion, and the capture with the bias-off
write. Each part has the state it ends in as a definition, and one lemma that runs it from its first write. -/

namespace Sys2Proof.Machine

open Sys2Proof.Safety

/-! #### The configuration byte of a READ -/

/-- In `S_IDLE` the shadow is its bias bit and the two bits that a READ leaves. -/
theorem cfg_eq_bias_or_mode_of_idle {s : State} (hi : Inv s) (hf : s.fsm = .idle) :
    s.cfg = s.cfg &&& 0x80#8 ||| s.cfg &&& 0x11#8 := by
  rw [← cfg_kept_of_idle hi hf, ← BitVec.and_or_distrib_left]
  exact BitVec.and_allOnes.symm

/-- With the bias bit set (R87) the byte no longer shows what the bit was before (R136). -/
theorem cfg_biased_of_idle {s : State} (hi : Inv s) (hf : s.fsm = .idle) :
    s.cfg ||| 0x80#8 = s.cfg &&& 0x11#8 ||| 0x80#8 := by
  have habsorb : s.cfg &&& 0x80#8 ||| 0x80#8 = 0x80#8 := by
    ext j hj
    simp
  calc s.cfg ||| 0x80#8
      = (s.cfg &&& 0x80#8 ||| s.cfg &&& 0x11#8) ||| 0x80#8 := by rw [← cfg_eq_bias_or_mode_of_idle hi hf]
    _ = s.cfg &&& 0x11#8 ||| (s.cfg &&& 0x80#8 ||| 0x80#8) := by rw [BitVec.or_comm (_ &&& _), BitVec.or_assoc]
    _ = s.cfg &&& 0x11#8 ||| 0x80#8 := by rw [habsorb]

/-- Clearing the bias bit of the biased byte (R92) gives the mode bits alone. -/
theorem mode_or_bias_and_not_bias (b : Byte) : (b &&& 0x11#8 ||| 0x80#8) &&& 0x7F#8 = b &&& 0x11#8 := by
  rw [BitVec.and_or_distrib_right, BitVec.and_assoc]
  simp

/-! #### The states between the parts -/

/-- The state after the two writes of the fault-clear strobe (R85, R86). -/
def State.faultCleared (s : State) (rest : List Lines) : State :=
  { s with
    flt := false
    fsm := .biasOnW
    lastw := s.cfg
    lastwValid := true
    inputs := rest
    trace := s.trace ++ [.write (s.cfg ||| 0x02#8), .write s.cfg] }

/-- The state after the bias-on write and the whole warm-up (R87, R88). -/
def State.warmedUp (s : State) (rest : List Lines) : State :=
  { s with
    cfg := s.cfg ||| 0x80#8
    fsm := .trigW
    bwt := 0#4
    psc := 0
    lastw := s.cfg ||| 0x80#8
    lastwValid := true
    inputs := rest
    trace := s.trace ++ [.write (s.cfg ||| 0x80#8), .delay 10] }

/-- The state after the trigger write and a whole conversion wait of `n` ticks (R89, R90). -/
def State.converted (s : State) (n : Nat) (rest : List Lines) : State :=
  { s with
    fsm := .rtdR
    ctc := 0#6
    psc := 0
    lastw := s.cfg ||| 0x20#8
    lastwValid := true
    inputs := rest
    trace := s.trace ++ [.write (s.cfg ||| 0x20#8), .delay n] }

/-- The state with the reading `d` captured and the bias off (R91, R92), before the response is loaded. -/
def State.captured (s : State) (d : Half) (rest : List Lines) : State :=
  { s with
    cfg := s.cfg &&& 0x7F#8
    flt := faultBit d
    raw16 := d
    lastw := s.cfg &&& 0x7F#8
    lastwValid := true
    inputs := rest
    trace := s.trace ++ [.read d, .write (s.cfg &&& 0x7F#8)] }

/-! #### The parts of the chain -/

/-- The clock that accepts a READ in an idle block (R83). -/
theorem step_accept_read {s : State} {c : Lines} {ls : List Lines} (hf : s.fsm = .idle) (hin : s.inputs = c :: ls)
    (hc : Offers c (encode .read)) :
    step s = .next ((((s.emit (.accept (encode .read))).setOp .read).goto .fcSet).setInputs ls) := by
  obtain ⟨hr, hv, hw⟩ := hc
  obtain rfl : s.lines = c := lines_of_cons hin
  rw [stepRunsTheDecodedCommand s _ hf hr hv (hw ▸ decodeOfEncode .read rfl), hw, readCompletes _ (by exact hf),
    afterward_next]
  simp [State.endClock, State.emit, State.setOp, State.goto, State.setInputs, hin]

section
variable {s : State} {w w' t rest : List Lines} {a a' : Lines}

/-- R85, R86: the fault-clear strobe leaves the shadow as it was, if `FCLR` was clear. -/
theorem run_faultClear_read (hf : s.fsm = .fcSet) (ho : s.op = .read) (hclr : s.fclr = false)
    (hin : s.inputs = transact w a ++ (transact w' a' ++ rest)) (hb : BusAnswer w a) (hb' : BusAnswer w' a') :
    run (w.length + 1 + (w'.length + 1)) s = .next (s.faultCleared rest) := by
  have hcfg : putBit Config.bitFclr false (s.cfg ||| 0x02#8) = s.cfg := putBit_false_putBit_true hclr
  rw [run_trans (run_fcSet hf hin hb) (run_fcClr_read rfl ho rfl hb')]
  simp [State.faultCleared, State.busWrite, State.goto, State.setFclr, State.clearFlt, State.setInputs, putBit_fclr_on,
    hcfg]

/-- R87, R88: the bias-on write and the whole warm-up. -/
theorem run_biasOn_read (hf : s.fsm = .biasOnW) (ho : s.op = .read) (hclk : 0 < s.params.clkKHz)
    (hin : s.inputs = transact w a ++ (t ++ rest)) (hb : BusAnswer w a) (he : Elapse (10 * s.params.clkKHz) t) :
    run (w.length + 1 + 10 * s.params.clkKHz) s = .next (s.warmedUp rest) := by
  obtain ⟨-, hwarmup, -⟩ := warmupTakesTenTicks (microBiasOnW (s.setInputs (t ++ rest))) t rest hclk rfl rfl rfl rfl he
  rw [State.warmedUp, List.append_cons]
  exact run_trans (run_biasOnW hf hin hb) (hwarmup ho)

/-- R89, R90: the trigger write and the whole conversion wait leave the shadow as it was, if `ONESHOT` was clear. -/
theorem run_conversion {n : Nat} (hf : s.fsm = .trigW) (hclk : 0 < s.params.clkKHz) (hone : s.oneshot = false)
    (hn : s.convTicks = n) (hin : s.inputs = transact w a ++ (t ++ rest)) (hb : BusAnswer w a)
    (he : Elapse (n * s.params.clkKHz) t) :
    run (w.length + 1 + n * s.params.clkKHz) s = .next (s.converted n rest) := by
  have hcfg : putBit Config.bitOneshot false (s.cfg ||| 0x20#8) = s.cfg := putBit_false_putBit_true hone
  have hticks : ((s.setInputs (t ++ rest)).setOneshot true).flush.convTicks = n := by
    rw [← hn, convTicks_eq, convTicks_eq]
    simp
  have hctc : (microTrigW (s.setInputs (t ++ rest))).ctc = BitVec.ofNat 6 n := congrArg (BitVec.ofNat 6) hticks
  have hload : (BitVec.ofNat 6 n).toNat = n ∧ BitVec.ofNat 6 n ≠ 0#6 := by
    rw [← hn, convTicks_eq]
    split <;> decide
  obtain ⟨-, hconv⟩ := conversionTakesItsTicks (microTrigW (s.setInputs (t ++ rest))) t rest hclk rfl (hctc ▸ hload.2)
    rfl rfl (by rw [hctc, hload.1]; exact he)
  rw [hctc, hload.1] at hconv
  refine (run_trans (run_trigW hf hin hb) hconv).trans ?_
  rw [microTrigW_eq, State.loadConv, hticks]
  simp [State.converted, State.goto, State.busWrite, State.setOneshot, State.setInputs, putBit_oneshot_on,
    ← putBit_oneshot_off, hcfg]

/-- R91, R92: the capture, the bias-off write, and the response that the fault bit of the reading chooses. -/
theorem run_capture_read (hf : s.fsm = .rtdR) (ho : s.op = .read) (hflt : s.flt = false)
    (hin : s.inputs = transact w a ++ (transact w' a' ++ rest)) (hb : BusAnswer w a) (hb' : BusAnswer w' a') :
    run (w.length + 1 + (w'.length + 1)) s = .next ((s.captured a.busRdata rest).respond
      (bif faultBit a.busRdata then .hardwareFault else .ok)
      (bif faultBit a.busRdata then 0#15 else rawCode a.busRdata)) := by
  rw [run_trans (run_rtdR hf hin hb) (run_biasOffW_read rfl ho rfl hb'), State.raise_eq_respond, cond_respond]
  simp [State.captured, State.respond, State.goto, State.busWrite, State.busRead16, State.captureFlt, State.setBias,
    State.setInputs, putBit_bias_off, hflt]

end

/-- R92, R93: the event of the response to a reading. -/
theorem resp_event_of_reading (d : Half) :
    TraceEvent.resp (bif faultBit d then Status.hardwareFault else .ok).code (bif faultBit d then 0#15 else rawCode d) =
      if d.getLsbD 0 then .resp 2#3 0#15 else .resp 0#3 (d.extractLsb' 1 15) := by
  rw [faultBit]
  cases d.getLsbD 0 <;> rfl

/-- In `S_IDLE` both timers and the prescaler are at rest (R26, R27, R29). -/
theorem timers_rest_of_idle {s : State} (hi : Inv s) (hf : s.fsm = .idle) : s.bwt = 0#4 ∧ s.ctc = 0#6 ∧ s.psc = 0 :=
  ⟨hi.bwtRests (by simp [hf]), hi.ctcRests (by simp [hf]), hi.pscRests (by simp [hf]) (by simp [hf])⟩

/-- In `S_IDLE` both strobe bits are clear (R17, R18). -/
theorem strobes_clear_of_idle {s : State} (hi : Inv s) (hf : s.fsm = .idle) : s.fclr = false ∧ s.oneshot = false :=
  ⟨by simpa [hf] using hi.fclr, by simpa [hf] using hi.oneshot⟩

/-- Settles O48: acceptance, the four parts of the chain, and the response taken; in `S_IDLE` every element that the
chain leaves at rest was at rest before. -/
theorem readNetEffect : Obligations.ReadNetEffect := by
  intro s c a₁ a₂ a₃ a₄ a₅ a₆ k w₁ w₂ w₃ t₁ w₄ t₂ w₅ w₆ h rest hi hf hc h₁ h₂ h₃ he₁ h₄ he₂ h₅ h₆ hk hin
  simp only [List.append_assoc, List.cons_append, List.nil_append] at hin
  generalize hn : (if s.cfg.getLsbD 0 then 63 else 53) = n at he₂ ⊢
  obtain ⟨hclr, hone⟩ := strobes_clear_of_idle hi hf
  have hbiasedOne : (s.cfg ||| 0x80#8).getLsbD 5 = false := by simpa [State.oneshot_eq] using hone
  have hbiasedTicks : (if (s.cfg ||| 0x80#8).getLsbD 0 then 63 else 53) = n := by simpa using hn
  have hstrobe := run_trans (run_one (step_accept_read hf hin hc))
    (run_faultClear_read rfl rfl (by exact hclr) rfl h₁ h₂)
  have hwarm := run_trans hstrobe (run_biasOn_read rfl rfl hi.clk rfl h₃ he₁)
  have hconv := run_trans hwarm
    (run_conversion rfl hi.clk (by exact hbiasedOne) ((convTicks_eq _).trans hbiasedTicks) rfl h₄ he₂)
  have hchain := run_trans hconv (run_capture_read rfl rfl rfl rfl h₅ h₆)
  rw [show 8 + w₁.length + w₂.length + w₃.length + 10 * s.params.clkKHz + w₄.length + n * s.params.clkKHz + w₅.length +
      w₆.length + h.length = 1 + (w₁.length + 1 + (w₂.length + 1)) + (w₃.length + 1 + 10 * s.params.clkKHz) +
      (w₄.length + 1 + n * s.params.clkKHz) + (w₅.length + 1 + (w₆.length + 1)) + (h.length + 1) by omega]
  refine (run_trans hchain (run_response rfl hk)).trans (congrArg Host.Outcome.next ?_)
  obtain ⟨hop, hraw, hresp⟩ := takeResponse_elements_of_idle hi hf
  obtain ⟨hbwt, hctc, hpsc⟩ := timers_rest_of_idle hi hf
  rw [← cfg_eq_bias_or_mode_of_idle hi hf, resp_event_of_reading]
  simp [State.captured, State.converted, State.warmedUp, State.faultCleared, cfg_biased_of_idle hi hf,
    mode_or_bias_and_not_bias, BitVec.or_assoc, faultBit, encode, hop, hraw, hresp, hbwt, hctc, hpsc, hf]

end Sys2Proof.Machine

/-! ### The closed-form temperature

Every quantity of R141 is a natural number times one power of two, written with as many further factors of two in the
significand as binary64 takes. Rounding keeps such a number, and a difference of two of them is again one. -/

namespace Sys2Proof.Machine

namespace F64

/-- Rounding keeps `v * 2^e`, 0 included, for `v` of at most 53 bits and every exponent `e` of the format. -/
theorem round_exact (neg : Bool) {v p j : Nat} {k e : Int} (hv : v < 2 ^ 53) (hk : k + p - j = e)
    (hlo : -1074 ≤ e) (hhi : e ≤ 971) : ∃ d : Nat, round neg (v * 2 ^ p) (2 ^ j) k = .fin neg (v * 2 ^ d) (e - d) := by
  rcases Nat.eq_zero_or_pos v with rfl | hpos
  · refine ⟨(e + 1074).toNat, ?_⟩
    rw [Nat.zero_mul, Nat.zero_mul, round, if_pos rfl]
    congr 1
    omega
  · have hlog : Nat.log2 v < 53 := (Nat.log2_lt (by omega)).2 hv
    have hcanon : canonExp v e ≤ e := by
      rw [canonExp]
      omega
    refine ⟨(e - canonExp v e).toNat, ?_⟩
    rw [round_pow neg hpos hv (by omega) (by rw [hk]; omega), hk]
    congr 1
    omega

/-- `v * 2^e` at the exponent `k`, whatever power of two its significand holds. -/
theorem scaled_mul_two_pow (neg : Bool) (v : Nat) {d p : Nat} (e : Int) (h : d ≤ p) :
    scaled neg (v * 2 ^ d) (e - d) (e - p) = (if neg then -v else v : Int) * 2 ^ p := by
  have hshift : (e - d - (e - p)).toNat = p - d := by omega
  have hmul : v * 2 ^ d * 2 ^ (p - d) = v * 2 ^ p := by rw [Nat.mul_assoc, ← Nat.pow_add, Nat.add_sub_cancel' h]
  rw [scaled, hshift, hmul]
  cases neg
  · simp
  · simp

/-- The difference of two multiples of `2^e` is that of the multipliers, and +0 where they agree. -/
theorem sub_multiples (a b c d : Nat) (e : Int) :
    (F64.fin false (a * 2 ^ c) (e - c)).sub (.fin false (b * 2 ^ d) (e - d)) =
      if a = b then .fin false 0 (-1074)
      else round (decide (a < b)) (((a : Int) - b).natAbs * 2 ^ max c d) 1 (e - (max c d : Nat)) := by
  have hmin : min (e - c) (e - d) = e - (max c d : Nat) := by omega
  have hsum : scaled false (a * 2 ^ c) (e - c) (e - (max c d : Nat)) +
      scaled true (b * 2 ^ d) (e - d) (e - (max c d : Nat)) = ((a : Int) - b) * 2 ^ max c d := by
    rw [scaled_mul_two_pow _ _ _ (Nat.le_max_left c d), scaled_mul_two_pow _ _ _ (Nat.le_max_right c d)]
    simp only [Bool.false_eq_true, if_false, if_true]
    ring
  have hpow : (0 : Int) < 2 ^ max c d := by positivity
  have hzero : ((a : Int) - b) * 2 ^ max c d = 0 ↔ a = b := by
    rw [mul_eq_zero_iff_right hpow.ne']
    omega
  have hneg : ((a : Int) - b) * 2 ^ max c d < 0 ↔ a < b := by
    rw [← neg_pos, ← neg_mul, mul_pos_iff_of_pos_right hpow]
    omega
  have habs : (((a : Int) - b) * 2 ^ max c d).natAbs = ((a : Int) - b).natAbs * 2 ^ max c d := by
    rw [Int.natAbs_mul, Int.natAbs_pow]
    rfl
  simp only [sub, neg, add, hmin, Bool.not_false, hsum, hzero, hneg, habs, Bool.false_and]

theorem ofNat_zero : ofNat 0 = .fin false 0 (-1074) := by decide

theorem ofNat_thirtyTwo : ofNat 32 = .fin false (2 ^ 52) (-47) := by decide

theorem ofNat_twoHundredFiftySix : ofNat 256 = .fin false (8192 * 2 ^ 39) (-5 - (39 : Nat)) := by decide

theorem ofNat_exact {n : Nat} (h : n < 2 ^ 53) : ∃ d : Nat, ofNat n = .fin false (n * 2 ^ d) (0 - d) := by
  simpa [ofNat] using round_exact (p := 0) (j := 0) (k := 0) false h rfl (by decide) (by decide)

/-- Division by 32.0 of a natural number is exact. -/
theorem ofNat_div_thirtyTwo {n : Nat} (h : n < 2 ^ 53) :
    ∃ d : Nat, (ofNat n).div (ofNat 32) = .fin false (n * 2 ^ d) (-5 - d) := by
  obtain ⟨d, hn⟩ := ofNat_exact h
  rw [hn, ofNat_thirtyTwo, div_finite _ _ _ _ _ (by decide)]
  exact round_exact false h (by omega) (by decide) (by decide)

end F64

namespace Solver

/-- R141: the closed form in thirty-seconds of a degree; at the code of 0 degrees it is +0. -/
theorem simpleTemperature_eq (code : RawCode) : ∃ d : Nat, simpleTemperature code =
    .fin (decide (code.toNat < 8192)) (((code.toNat : Int) - 8192).natAbs * 2 ^ d) (-5 - d) := by
  have hcode : code.toNat < 2 ^ 15 := code.isLt
  obtain ⟨d, hquot⟩ := F64.ofNat_div_thirtyTwo (n := code.toNat) (by omega)
  rw [simpleTemperature, hquot, F64.ofNat_twoHundredFiftySix, F64.sub_multiples]
  split
  next heq =>
    have hzero : ((code.toNat : Int) - 8192).natAbs = 0 := by omega
    exact ⟨1069, by rw [hzero, Nat.zero_mul, heq]; rfl⟩
  next => exact F64.round_exact (j := 0) _ (by omega) (by omega) (by decide) (by decide)

end Solver

/-- Settles O55: the significand is the number of thirty-seconds with some further factors of two. -/
theorem simpleTemperatureIsExact : Obligations.SimpleTemperatureIsExact := by
  intro code
  obtain ⟨d, htemp⟩ := Solver.simpleTemperature_eq code
  refine ⟨_, ((code.toNat : Int) - 8192).natAbs * 2 ^ d, d + 5, htemp.trans ?_, rfl, ?_⟩
  · congr 1
    omega
  · push_cast
    ring

end Sys2Proof.Machine

/-! ### The Newton iteration

What one pass of R144's loop does, and from it the ways that a call can end. -/

namespace Sys2Proof.Machine.Solver

/-- `x - (f(x) - goal) / f'(x)` (R144). -/
def newtonStep (f f' : F64 → F64) (goal x : F64) : F64 := x.sub (((f x).sub goal).div (f' x))

theorem returnsTo_eq_true {next : F64} {prev : Option F64} :
    returnsTo next prev = true ↔ ∃ p, prev = some p ∧ next.eq p = true := by
  cases prev with
  | none => simp [returnsTo]
  | some p => simp [returnsTo]

section
variable {f f' : F64 → F64} {goal x : F64} {passes : Nat} {prev : Option F64}

/-- One pass of the loop: its three tests in order, each with its result, and the passes that follow. -/
theorem iterate_succ : iterate f f' goal (passes + 1) prev x =
    if ((f x).sub goal).eq (.fin false 0 (-1074)) then .converged x
    else if (newtonStep f f' goal x).eq x then .converged x
    else if returnsTo (newtonStep f f' goal x) prev then .converged (closer f goal x (newtonStep f f' goal x))
    else iterate f f' goal passes (some x) (newtonStep f f' goal x) := by
  rw [iterate, F64.ofNat_zero]
  rfl

/-- A pass in which no test fires hands `x` and the next iterate on. -/
theorem iterate_continues (hroot : ((f x).sub goal).eq (.fin false 0 (-1074)) = false)
    (hfixed : (newtonStep f f' goal x).eq x = false) (hcycle : returnsTo (newtonStep f f' goal x) prev = false) :
    iterate f f' goal (passes + 1) prev x = iterate f f' goal passes (some x) (newtonStep f f' goal x) := by
  simp [iterate_succ, hroot, hfixed, hcycle]

/-- A pass whose next iterate is the one before `x` ends at the closer of the two. -/
theorem iterate_cycle (hroot : ((f x).sub goal).eq (.fin false 0 (-1074)) = false)
    (hfixed : (newtonStep f f' goal x).eq x = false) (hcycle : returnsTo (newtonStep f f' goal x) prev = true) :
    iterate f f' goal (passes + 1) prev x = .converged (closer f goal x (newtonStep f f' goal x)) := by
  simp [iterate_succ, hroot, hfixed, hcycle]

/-- The ways that a pass leads to a result: one for each test, and the passes that follow. -/
theorem iterate_converged_cases {r : F64} (h : iterate f f' goal (passes + 1) prev x = .converged r) :
    (((f x).sub goal).eq (.fin false 0 (-1074)) = true ∧ r = x) ∨
    ((newtonStep f f' goal x).eq x = true ∧ r = x) ∨
    (returnsTo (newtonStep f f' goal x) prev = true ∧ r = closer f goal x (newtonStep f f' goal x)) ∨
    iterate f f' goal passes (some x) (newtonStep f f' goal x) = .converged r := by
  rw [iterate_succ] at h
  split at h
  next hroot => exact .inl ⟨hroot, (Result.converged.inj h).symm⟩
  next =>
    split at h
    next hfixed => exact .inr (.inl ⟨hfixed, (Result.converged.inj h).symm⟩)
    next =>
      split at h
      next hcycle => exact .inr (.inr (.inl ⟨hcycle, (Result.converged.inj h).symm⟩))
      next => exact .inr (.inr (.inr h))

/-- Every result is a root, a fixed point, or the closer end of a cycle of period two, whenever the iterate before `x`,
if there is one, stepped to `x`. -/
theorem iterate_converged_justified {r : F64} (hprev : ∀ p, prev = some p → x = newtonStep f f' goal p)
    (h : iterate f f' goal passes prev x = .converged r) :
    ((f r).sub goal).eq (.fin false 0 (-1074)) = true ∨ (newtonStep f f' goal r).eq r = true ∨
    ∃ p y, y = newtonStep f f' goal p ∧ (newtonStep f f' goal y).eq p = true ∧
      r = closer f goal y (newtonStep f f' goal y) := by
  induction passes generalizing prev x with
  | zero => exact absurd h (by simp [iterate])
  | succ passes ih =>
    obtain ⟨hroot, rfl⟩ | ⟨hfixed, rfl⟩ | ⟨hcycle, hr⟩ | hnext := iterate_converged_cases h
    · exact .inl hroot
    · exact .inr (.inl hfixed)
    · obtain ⟨p, hp, heq⟩ := returnsTo_eq_true.1 hcycle
      exact .inr (.inr ⟨p, x, hprev p hp, heq, hr⟩)
    · exact ih (fun p hp => by rw [Option.some.inj hp]) hnext

end

/-- Settles O56: the first pass goes on from `a` to `b`, and the second finds the next iterate to be `a` again. -/
theorem oscillationEndsAtTheCloser : Obligations.OscillationEndsAtTheCloser := by
  intro f f' goal a b hroota hrootb hab hba hne hne' hself
  have hstepa : newtonStep f f' goal a = b := hab
  have hstepb : newtonStep f f' goal b = a := hba
  have hfirst : newton f f' goal a = iterate f f' goal 99 (some a) b := by
    rw [newton, iterate_continues hroota (by rwa [hstepa]) rfl, hstepa]
  have hsecond : iterate f f' goal 99 (some a) b = .converged (closer f goal b a) := by
    rw [iterate_cycle hrootb (by rwa [hstepb]) (by rwa [hstepb]), hstepb]
  rw [hfirst, hsecond, closer]

/-- Settles O57: the first pass has no iterate before it, and every later one is a Newton step from the one before. -/
theorem solverResultIsJustified : Obligations.SolverResultIsJustified := by
  intro f f' goal x0 r h
  exact iterate_converged_justified (fun _ hp => absurd hp (by simp)) h

end Sys2Proof.Machine.Solver

/-! ### Reset, and what a command in flight leaves alone -/

namespace Sys2Proof.Machine

open Sys2Proof.Safety

/-- Settles O40: what may change the four is an accepted CONFIGURE, and only `S_IDLE` accepts. -/
theorem noReconfigurationInFlight : Obligations.NoReconfigurationInFlight := by
  intro s t hr hbusy h
  obtain ⟨u, hu, rfl⟩ := step_cases h
  rcases hu.configures_or_keeps hr with ⟨hidle, -⟩ | ⟨href, hr0, hf50, hwire⟩
  · exact absurd hidle hbusy
  · exact ⟨hf50, hwire, href, hr0⟩

/-- R190: in a clock with reset asserted the registers read as the reset values. -/
theorem now_of_reset {s : State} (h : s.lines.rstN = false) : s.now = s.applyReset := by
  simp [State.now, h]

/-- `S_CFG_W` is the state that reset gives, so reset or not, a block in it shows it. -/
theorem now_fsm_of_cfgW {s : State} (h : s.fsm = .cfgW) : s.now.fsm = .cfgW := by
  cases hr : s.lines.rstN with
  | false => rw [now_of_reset hr]; rfl
  | true => rw [now_of_running hr, h]

/-- R60, R67, R31: a block that shows `S_CFG_W` takes no command, has no response, and is busy. -/
theorem handshake_of_cfgW {s : State} (h : s.now.fsm = .cfgW) :
    s.outputs.cmdReady = false ∧ s.outputs.respValid = false ∧ s.outputs.busy = true := by
  simp [State.outputs, h]

/-- R190: while reset is asserted nothing is requested on the bus. -/
theorem outputs_bus_of_reset {s : State} (h : s.lines.rstN = false) : s.outputs.bus = none := by
  simp [State.outputs, h]

/-- R190: while reset is asserted the status outputs show the values of R33. -/
theorem status_of_reset {s : State} (h : s.lines.rstN = false) :
    s.outputs.cfgShadow = (if s.params.wire3Reset then 0x11#8 else 0x01#8) ∧ s.outputs.flt = false ∧
    s.outputs.calRref = Config.rrefDefault ∧ s.outputs.calR0 = Config.r0Default ∧ s.outputs.respWord = 0#18 := by
  simp only [State.outputs, now_of_reset h]
  exact ⟨resetWith_cfg s.params s.inputs, rfl, rfl, rfl, rfl⟩

/-- Settles O27: under reset the outputs read the reset values, and the step puts the same values in the registers; so in
both clocks the block shows `S_CFG_W`, whatever the lines of the second are. -/
theorem resetOverridesEverything : Obligations.ResetOverridesEverything := by
  intro s l hl
  have hr : (s.withLines l).lines.rstN = false := by rwa [withLines_lines]
  have hunder : (s.withLines l).now.fsm = .cfgW := by rw [now_of_reset hr]; rfl
  have hafter : (s.withLines l).applyReset.endClock.now.fsm = .cfgW := now_fsm_of_cfgW rfl
  obtain ⟨hready, hvalid, hbusy⟩ := handshake_of_cfgW hunder
  obtain ⟨hcfg, hflt, href, hr0, hresp⟩ := status_of_reset hr
  exact ⟨outputs_bus_of_reset hr, hready, hvalid, hbusy, hcfg, hflt, href, hr0, hresp,
    _, step_reset hr, rfl, handshake_of_cfgW hafter⟩

end Sys2Proof.Machine
